-- ==== Sys2Proof/Word.lean ====
section
/-! DEFINITION. The data the codec handles: bytes, payload values and nine-byte frames
(spec/00_scope.md R5, R6; spec/10_state.md R11).  A time value is a `Nat` that counts TIME_UNITs: the
registers that hold one are W_T bits wide, W_T is a parameter (R5), and the operations that write them
keep the value below `2 ^ W_T` (`Sys2Proof.Inv`). -/

namespace Sys2Proof

/-- BYTE_W = 8 bits (R5); bit 7 is the most significant (R6). -/
abbrev Byte := BitVec 8

/-- The 16-bit payload value `val` (R5 VAL_W). -/
abbrev Val := BitVec 16

/-- A frame register or frame operand: nine bytes, index 0 to 8 (R6, R11, R41, R70).
`b0` is the first byte on the wire (R51 item 2). -/
structure Frame where
  b0 : Byte
  b1 : Byte
  b2 : Byte
  b3 : Byte
  b4 : Byte
  b5 : Byte
  b6 : Byte
  b7 : Byte
  b8 : Byte
  deriving DecidableEq, Repr, Inhabited

/-- Nine zero bytes: what LASTRAW and FOUT hold after reset (R27). -/
def Frame.zero : Frame := ⟨0, 0, 0, 0, 0, 0, 0, 0, 0⟩

end Sys2Proof
end

