-- ==== Sys2Proof/Config.lean ====
section
/-! DEFINITION. What an implementation fixes: the constants and parameters of spec/00_scope.md R5,
and the free values, which the spec leaves unspecified (spec/93_implementation_defined.md U5, U6). -/

namespace Sys2Proof

/-- SHORT_WRITE_POLICY (R5, R123, D13): what SEND does after the transport accepted fewer than nine
bytes. -/
inductive ShortWritePolicy where
  | abort
  | complete
  deriving DecidableEq, Repr, Inhabited

/-- The rows of R5 marked "parameter" or OPEN.  They are an argument of the model, held beside the
registers so that a claim over every state is a claim over every choice of them (log 1:
DESIGN CHOICE, safe). -/
structure Params where
  /-- W_T, the width in bits of `now`, T0, T1 and TMO. -/
  wT : Nat
  /-- SETTLE, the settle delay in time units. -/
  settle : Nat
  /-- SHORT_WRITE_POLICY. -/
  shortWrite : ShortWritePolicy
  deriving DecidableEq, Repr

namespace Config

/-- PREFIX = 0xFF, frame byte 0 and the synchronisation byte (R5, R22). -/
def prefixByte : Byte := 0xFF

/-- ADDR = 0x01, byte 1 of a built frame (R5, R22). -/
def addrByte : Byte := 0x01

/-- FRAME_LEN (R5). -/
def frameLen : Nat := 9

/-- TMO_DEFAULT (R5, R18, R27). -/
def tmoDefault : Nat := 1000

/-- SHORT_WRITE_POLICY of the machine that `State.reset` describes: OPEN in the spec (R5, D13), so
it has no body and a claim about it holds for both values (log 1: DESIGN CHOICE, safe). -/
opaque shortWritePolicy : ShortWritePolicy

/-- FOUT after a RECEIVE that did not end in CRC_OK: "any value (72 bits drawn afresh)" (U5, R21).
Applied to the draw counter of the state (log 3: DESIGN CHOICE, safe). -/
opaque unspecFout : Nat → Frame

/-- TXBUF outside a SEND (R12, U6; log 4: DESIGN CHOICE,
safe). -/
opaque unspecTxbuf : Nat → Frame

/-- RXBUF outside a RECEIVE (R12, U6; log 4: DESIGN CHOICE,
safe). -/
opaque unspecRxbuf : Nat → Frame

/-- T0 outside a RECEIVE (R19, U6; log 4: DESIGN CHOICE,
safe). -/
opaque unspecT0 : Nat → Nat

/-- T1 outside the settle steps of a SEND (R19, U6; log 4: DESIGN CHOICE,
safe). -/
opaque unspecT1 : Nat → Nat

/-- WSHORT outside a SEND (R27, U6; log 4: DESIGN CHOICE,
safe). -/
opaque unspecWshort : Nat → Bool

end Config

/-- The parameters with the spec's values: W_T = 32, SETTLE = 10, the policy open (R5). -/
def Params.spec : Params :=
  { wT := 32, settle := 10, shortWrite := Config.shortWritePolicy }

/-- The parameters fit their registers: TMO_DEFAULT and SETTLE are W_T-bit values. -/
abbrev Params.wf (p : Params) : Prop :=
  Config.tmoDefault < 2 ^ p.wT ∧ p.settle < 2 ^ p.wT

end Sys2Proof
end

