-- ==== Sys2Proof/Machine/Frame.lean ====
section
/-! DEFINITION. The pure functions on frames of spec/00_scope.md R8, with their rules in
spec/40_codec_ops.md, and the frame index space of spec/20_memory.md R41. -/

namespace Sys2Proof

/-- The nine bytes in wire order, byte 0 first (R51 item 2). -/
def Frame.toList (f : Frame) : List Byte :=
  [f.b0, f.b1, f.b2, f.b3, f.b4, f.b5, f.b6, f.b7, f.b8]

/-- `val[15:8]`, the byte that goes into frame byte 3 (R51 item 1, R73). -/
def valHi (v : Val) : Byte := v.extractLsb' 8 8

/-- `val[7:0]`, the byte that goes into frame byte 4 (R51 item 1, R73). -/
def valLo (v : Val) : Byte := v.extractLsb' 0 8

/-- The payload value a frame carries: byte 3 high, byte 4 low (R70, R73). -/
def Frame.val (f : Frame) : Val := f.b3 ++ f.b4

/-- `sum(f[1..7])`, the unbounded sum of seven bytes, 0 to 1785 (R6, R104). -/
def sumBytes (f : Frame) : Nat :=
  f.b1.toNat + f.b2.toNat + f.b3.toNat + f.b4.toNat + f.b5.toNat + f.b6.toNat + f.b7.toNat

/-- `csum(f) = (256 - (sum(f[1..7]) mod 256)) mod 256` (R8, R104, R107). -/
def csum (f : Frame) : Byte := BitVec.ofNat 8 ((256 - sumBytes f % 256) % 256)

/-- `verify(f) = (csum(f) = f[8])` (R8, R109). -/
def verify (f : Frame) : Bool := csum f == f.b8

/-- `seal(p)`: bytes 0 to 7 as they are, byte 8 the checksum (R8, R103). -/
def sealFrame (p : Frame) : Frame := { p with b8 := csum p }

/-- `build(c, v)` as R8 defines it. -/
def build (c : Byte) (v : Val) : Frame :=
  sealFrame
    { b0 := Config.prefixByte, b1 := Config.addrByte, b2 := c, b3 := valHi v, b4 := valLo v,
      b5 := 0, b6 := 0, b7 := 0, b8 := 0 }

/-- `buildCommand(command, value)`, the pseudocode of R101: a zero frame whose bytes 3 and 4 are
written only when `val != 0`. -/
def buildCommand (c : Byte) (v : Val) : Frame :=
  let g := { Frame.zero with b0 := Config.prefixByte, b1 := Config.addrByte, b2 := c }
  let g := if v = 0 then g else { g with b3 := valHi v, b4 := valLo v }
  sealFrame g

/-- Byte `i` of a frame; there is none outside 0 to 8 (R41). -/
def Frame.get? (f : Frame) : Nat → Option Byte
  | 0 => some f.b0
  | 1 => some f.b1
  | 2 => some f.b2
  | 3 => some f.b3
  | 4 => some f.b4
  | 5 => some f.b5
  | 6 => some f.b6
  | 7 => some f.b7
  | 8 => some f.b8
  | _ => none

/-- `REG[i] <- b` on a frame; none outside 0 to 8 (R6, R41). -/
def Frame.set? (f : Frame) (b : Byte) : Nat → Option Frame
  | 0 => some { f with b0 := b }
  | 1 => some { f with b1 := b }
  | 2 => some { f with b2 := b }
  | 3 => some { f with b3 := b }
  | 4 => some { f with b4 := b }
  | 5 => some { f with b5 := b }
  | 6 => some { f with b6 := b }
  | 7 => some { f with b7 := b }
  | 8 => some { f with b8 := b }
  | _ => none

/-- `bits(f) = f[0]·2^64 + f[1]·2^56 + ... + f[8]`: byte 0 in bits [71:64], byte 8 in bits [7:0]
(R6). -/
def Frame.bits (f : Frame) : BitVec 72 :=
  BitVec.ofNat 72
    (f.b0.toNat * 2 ^ 64 + f.b1.toNat * 2 ^ 56 + f.b2.toNat * 2 ^ 48 + f.b3.toNat * 2 ^ 40 +
      f.b4.toNat * 2 ^ 32 + f.b5.toNat * 2 ^ 24 + f.b6.toNat * 2 ^ 16 + f.b7.toNat * 2 ^ 8 +
      f.b8.toNat)

/-- The frame whose bits are `v` (R6, R70). -/
def Frame.ofBits (v : BitVec 72) : Frame :=
  { b0 := v.extractLsb' 64 8, b1 := v.extractLsb' 56 8, b2 := v.extractLsb' 48 8,
    b3 := v.extractLsb' 40 8, b4 := v.extractLsb' 32 8, b5 := v.extractLsb' 24 8,
    b6 := v.extractLsb' 16 8, b7 := v.extractLsb' 8 8, b8 := v.extractLsb' 0 8 }

end Sys2Proof
end

