-- ==== Sys2Proof/Syntax.lean ====
section
/-! DEFINITION. The instructions: one constructor per row of spec/opcode_table.json, nine of format
OPREQ (spec/30_encoding.md R80) and seven of format FRAME9 (R76), and the two encoded forms they
are read from (R26, R70, R86). -/

namespace Sys2Proof

/-- One constructor per row of spec/opcode_table.json. -/
inductive Instr where
  /-- BUILD, op 0x1 (R101). -/
  | build (cmd : Byte) (val : Val)
  /-- CHECKSUM, op 0x2 (R104). -/
  | checksum (fin : Frame)
  /-- VERIFY, op 0x3 (R109). -/
  | verify (fin : Frame)
  /-- SEAL, op 0x4 (R103). -/
  | sealFrame (fin : Frame)
  /-- SEND, op 0x5 (R120). -/
  | send (cmd : Byte) (val : Val)
  /-- RECEIVE, op 0x6 (R126). -/
  | receive
  /-- ATTACH, op 0x7 (R151). -/
  | attach
  /-- SETTMO, op 0x8 (R152).  `tin` is W_T bits wide: `Instr.wf`. -/
  | setTmo (tin : Nat)
  /-- RDLAST, op 0x9 (R153). -/
  | rdLast
  /-- C_ABC, command frame 0x79 (R161). -/
  | cAbc (val : Val)
  /-- C_READ, command frame 0x86 (R162). -/
  | cRead (val : Val)
  /-- C_ZERO, command frame 0x87 (R163). -/
  | cZero (val : Val)
  /-- C_SPAN, command frame 0x88 (R164). -/
  | cSpan (val : Val)
  /-- C_RANGE, command frame 0x99 (R165). -/
  | cRange (val : Val)
  /-- C_LOCK, command frame 0x9F (R166). -/
  | cLock (val : Val)
  /-- C_VERSION, command frame 0xA0 (R167). -/
  | cVersion (val : Val)
  deriving DecidableEq, Repr

/-- The rows of spec/opcode_table.json, by name. -/
inductive Row where
  | build | checksum | verify | sealFrame | send | receive | attach | setTmo | rdLast
  | cAbc | cRead | cZero | cSpan | cRange | cLock | cVersion
  deriving DecidableEq, Repr

/-- The row an instruction belongs to, whatever its operands. -/
def Instr.row : Instr → Row
  | .build _ _ => .build
  | .checksum _ => .checksum
  | .verify _ => .verify
  | .sealFrame _ => .sealFrame
  | .send _ _ => .send
  | .receive => .receive
  | .attach => .attach
  | .setTmo _ => .setTmo
  | .rdLast => .rdLast
  | .cAbc _ => .cAbc
  | .cRead _ => .cRead
  | .cZero _ => .cZero
  | .cSpan _ => .cSpan
  | .cRange _ => .cRange
  | .cLock _ => .cLock
  | .cVersion _ => .cVersion

/-- Format OPREQ: what the request inputs of R26 show in a step. -/
structure ReqPorts where
  op  : BitVec 4
  cmd : Byte
  val : Val
  fin : Frame
  tin : Nat
  deriving DecidableEq, Repr

/-- A word of spec/opcode_table.json, of either format.  Only OPREQ words are presented to the block;
a FRAME9 word is a frame that a test bench reads off TXLOG (R86). -/
inductive TableWord where
  | opreq (p : ReqPorts)
  | frame9 (f : Frame)
  deriving DecidableEq, Repr

/-- Request inputs that show the selector 0 ("an idle bus selects nothing", D3) and zeros. -/
def ReqPorts.idle : ReqPorts :=
  { op := 0, cmd := 0, val := 0, fin := Frame.zero, tin := 0 }

end Sys2Proof
end

