-- ==== Sys2Proof/WellFormed.lean ====
section
/-! DEFINITION. Which instructions can be presented: every operand has the width of its port
(spec/10_state.md R26).  Widths of 4, 8, 16 and 72 bits stand in the types; the one width that is a
parameter, W_T of `tin`, is checked here. -/

namespace Sys2Proof

/-- `i` can be presented to a block whose time width W_T is `w`.  The codec restricts no operand
value beyond its width (spec/30_encoding.md R77, spec/43_command_frames.md R160,
spec/42_config_ops.md R152). -/
def Instr.wf (w : Nat) : Instr → Bool
  | .build _ _ => true
  | .checksum _ => true
  | .verify _ => true
  | .sealFrame _ => true
  | .send _ _ => true
  | .receive => true
  | .attach => true
  | .setTmo tin => decide (tin < 2 ^ w)
  | .rdLast => true
  | .cAbc _ => true
  | .cRead _ => true
  | .cZero _ => true
  | .cSpan _ => true
  | .cRange _ => true
  | .cLock _ => true
  | .cVersion _ => true

end Sys2Proof
end

