-- ==== Sys2Proof/Decode.lean ====
section
/-! DEFINITION. Decoding of both formats (spec/30_encoding.md R76, R80, R83, R86), total, rejecting
by name; after it the encoder; last the host's table words. -/

namespace Sys2Proof

/-- Why request inputs select no operation. -/
inductive OpreqReject where
  /-- `op` 0x0 or 0xA to 0xF (R83). -/
  | reservedOp (op : BitVec 4)
  /-- `tin` shows a value that W_T wires cannot carry (R26; log 15: DEDUCED, safe). -/
  | tinTooWide
  deriving DecidableEq, Repr

/-- Why a frame is in no row of the table (R86). -/
inductive Frame9Reject where
  /-- Its constant bytes are not those of a command frame (R71). -/
  | notCommandFrame
  /-- Its byte 8 is not its checksum (R71). -/
  | badChecksum
  /-- A command frame with a code the table has no row for (R77). -/
  | unnamedCommand (code : Byte)
  deriving DecidableEq, Repr

/-- Why a word of either format is no instruction. -/
inductive Reject where
  | opreq (r : OpreqReject)
  | frame9 (r : Frame9Reject)
  deriving DecidableEq, Repr

/-- The OPREQ decoder: compares `op` with the nine patterns and refuses anything else (R80, R86).
Operand inputs an operation does not list are ignored (R80). -/
def decodeOpreq (w : Nat) (p : ReqPorts) : Except OpreqReject Instr :=
  if p.op = 0x1 then .ok (.build p.cmd p.val)
  else if p.op = 0x2 then .ok (.checksum p.fin)
  else if p.op = 0x3 then .ok (.verify p.fin)
  else if p.op = 0x4 then .ok (.sealFrame p.fin)
  else if p.op = 0x5 then .ok (.send p.cmd p.val)
  else if p.op = 0x6 then .ok .receive
  else if p.op = 0x7 then .ok .attach
  else if p.op = 0x8 then
    if p.tin < 2 ^ w then .ok (.setTmo p.tin) else .error .tinTooWide
  else if p.op = 0x9 then .ok .rdLast
  else .error (.reservedOp p.op)

/-- The row of R76 with command code `c`, applied to the payload. -/
def commandRow (c : Byte) (v : Val) : Option Instr :=
  if c = 0x79 then some (.cAbc v)
  else if c = 0x86 then some (.cRead v)
  else if c = 0x87 then some (.cZero v)
  else if c = 0x88 then some (.cSpan v)
  else if c = 0x99 then some (.cRange v)
  else if c = 0x9F then some (.cLock v)
  else if c = 0xA0 then some (.cVersion v)
  else none

/-- The bytes the mask 0xFFFF000000FFFFFF00 of R71 looks at have the values of a command frame. -/
def commandShape (f : Frame) : Bool :=
  (f.b0 == Config.prefixByte) && (f.b1 == Config.addrByte) &&
    (f.b5 == 0) && (f.b6 == 0) && (f.b7 == 0)

/-- The FRAME9 classifier of R86, "used by a test bench that watches TXLOG, never by the block":
constant bytes, then `verify(f)`, then the code.  No step calls it. -/
def decodeFrame9 (f : Frame) : Except Frame9Reject Instr :=
  if commandShape f = false then .error .notCommandFrame
  else if verify f = false then .error .badChecksum
  else
    match commandRow f.b2 f.val with
    | some i => .ok i
    | none => .error (.unnamedCommand f.b2)

/-- Decode a word of either format, on a block of time width `w`. -/
def decode (w : Nat) : TableWord → Except Reject Instr
  | .opreq p =>
    match decodeOpreq w p with
    | .ok i => .ok i
    | .error r => .error (.opreq r)
  | .frame9 f =>
    match decodeFrame9 f with
    | .ok i => .ok i
    | .error r => .error (.frame9 r)

/-- The request inputs of `SEND c, v` (R80). -/
def sendPorts (c : Byte) (v : Val) : ReqPorts :=
  { ReqPorts.idle with op := 0x5, cmd := c, val := v }

/-- The request a host makes to have an instruction carried out: the row of R80 for an operation, and
`SEND c, v` for a command frame (R160; log 2: DEDUCED, safe).  Ports an operation does not list show
zeros. -/
def requestOf : Instr → ReqPorts
  | .build cmd val => { ReqPorts.idle with op := 0x1, cmd := cmd, val := val }
  | .checksum fin => { ReqPorts.idle with op := 0x2, fin := fin }
  | .verify fin => { ReqPorts.idle with op := 0x3, fin := fin }
  | .sealFrame fin => { ReqPorts.idle with op := 0x4, fin := fin }
  | .send cmd val => sendPorts cmd val
  | .receive => { ReqPorts.idle with op := 0x6 }
  | .attach => { ReqPorts.idle with op := 0x7 }
  | .setTmo tin => { ReqPorts.idle with op := 0x8, tin := tin }
  | .rdLast => { ReqPorts.idle with op := 0x9 }
  | .cAbc val => sendPorts 0x79 val
  | .cRead val => sendPorts 0x86 val
  | .cZero val => sendPorts 0x87 val
  | .cSpan val => sendPorts 0x88 val
  | .cRange val => sendPorts 0x99 val
  | .cLock val => sendPorts 0x9F val
  | .cVersion val => sendPorts 0xA0 val

/-- The word of an instruction in its row's format, from the tables of R80 and R76. -/
def encode : Instr → TableWord
  | .build cmd val => .opreq (requestOf (.build cmd val))
  | .checksum fin => .opreq (requestOf (.checksum fin))
  | .verify fin => .opreq (requestOf (.verify fin))
  | .sealFrame fin => .opreq (requestOf (.sealFrame fin))
  | .send cmd val => .opreq (requestOf (.send cmd val))
  | .receive => .opreq (requestOf .receive)
  | .attach => .opreq (requestOf .attach)
  | .setTmo tin => .opreq (requestOf (.setTmo tin))
  | .rdLast => .opreq (requestOf .rdLast)
  | .cAbc val => .frame9 (build 0x79 val)
  | .cRead val => .frame9 (build 0x86 val)
  | .cZero val => .frame9 (build 0x87 val)
  | .cSpan val => .frame9 (build 0x88 val)
  | .cRange val => .frame9 (build 0x99 val)
  | .cLock val => .frame9 (build 0x9F val)
  | .cVersion val => .frame9 (build 0xA0 val)

/-- A table row of either format, by its fixed bits: the `op` pattern, or the match and mask of
R76. -/
inductive RowPattern where
  | op (pattern : BitVec 4)
  | frame (pattern mask : BitVec 72)
  deriving DecidableEq, Repr

/-- The pattern spec/opcode_table.json gives the row of an instruction. -/
def rowPattern : Instr → RowPattern
  | .build _ _ => .op 0x1
  | .checksum _ => .op 0x2
  | .verify _ => .op 0x3
  | .sealFrame _ => .op 0x4
  | .send _ _ => .op 0x5
  | .receive => .op 0x6
  | .attach => .op 0x7
  | .setTmo _ => .op 0x8
  | .rdLast => .op 0x9
  | .cAbc _ => .frame 0xFF0179000000000000 0xFFFFFF0000FFFFFF00
  | .cRead _ => .frame 0xFF0186000000000000 0xFFFFFF0000FFFFFF00
  | .cZero _ => .frame 0xFF0187000000000000 0xFFFFFF0000FFFFFF00
  | .cSpan _ => .frame 0xFF0188000000000000 0xFFFFFF0000FFFFFF00
  | .cRange _ => .frame 0xFF0199000000000000 0xFFFFFF0000FFFFFF00
  | .cLock _ => .frame 0xFF019F000000000000 0xFFFFFF0000FFFFFF00
  | .cVersion _ => .frame 0xFF01A0000000000000 0xFFFFFF0000FFFFFF00

/-- A word shows a row's fixed bits: `op` equals the pattern, or `bits(f) AND mask = match`
(R86). -/
def RowPattern.fits : RowPattern → TableWord → Bool
  | .op pattern, .opreq p => p.op == pattern
  | .frame pattern mask, .frame9 f => f.bits &&& mask == pattern
  | .op _, .frame9 _ => false
  | .frame _ _, .opreq _ => false

/-- The word that a number of spec/opcode_table.json stands for.  A row of format FRAME9 has 72 bits,
numbered as R6 numbers them; the table leaves its CSUM bits free and R76 says CSUM "is then fixed by
the checksum equation", so they are filled in by it (log 6: DEDUCED, unsafe).  A row of format OPREQ
has 4 bits, in whole bytes 8; its operands are bits the table does not give, so they are zeros.  A
number with more bits than its format, 2^72 or 2^4 and above, is no word of the table: the spec does not
speak of one (log 6: DESIGN CHOICE, safe). -/
def tableWord (nbits w : Nat) : Option TableWord :=
  if nbits = 72 ∧ w < 2 ^ 72 then some (.frame9 (sealFrame (Frame.ofBits (BitVec.ofNat 72 w))))
  else if nbits ≤ 8 ∧ w < 16 then some (.opreq { ReqPorts.idle with op := BitVec.ofNat 4 w })
  else none

/-- The instruction the decoder reads from a table word (W_T of R5). -/
def decodeTableWord (nbits w : Nat) : Option Instr :=
  match tableWord nbits w with
  | none => none
  | some word =>
    match decode Params.spec.wT word with
    | .ok i => some i
    | .error _ => none

/-- The request a host makes for a word of the table: an OPREQ word is presented as it stands; for a
command frame the host, having classified it, requests the SEND that emits it (log 9: DEDUCED, safe).
A word that is no instruction shows the reserved selector 0, which a step refuses (R83). -/
def tableRequest (nbits w : Nat) : ReqPorts :=
  match tableWord nbits w with
  | none => ReqPorts.idle
  | some (.opreq p) => p
  | some (.frame9 f) =>
    match decodeFrame9 f with
    | .ok i => requestOf i
    | .error _ => ReqPorts.idle

end Sys2Proof
end

