-- ==== Sys2Proof/Machine/State.lean ====
section
/-! DEFINITION. The state: every register of spec/10_state.md R10, the environment state of R24, the
outputs of R26 that no register shows, and what the outside world will do next; the state after
reset (R27); why a step can stop. -/

namespace Sys2Proof.Machine

open Sys2Proof

/-- PHASE, the sequencing state that stands in place of a program counter (R14).  Its 4-bit codes
are `Phase.code`; the codes R14 calls never taken have no constructor (log 13: DEDUCED, safe). -/
inductive Phase where
  | idle
  | seekingPrefix
  | collecting
  /-- Nine bytes held; exists only inside the step that stores the ninth (R14, R131). -/
  | complete
  | crcOk
  | crcFail
  | timeout
  | txFlush
  | txSettle
  deriving DecidableEq, Repr

/-- ERR, the result code of the most recent operation (R20); its 3-bit codes are
`ResultCode.code`. -/
inductive ResultCode where
  | ok
  | timeoutE
  | crcE
  | invalidE
  | transportE
  deriving DecidableEq, Repr

/-- The outputs of R26 that hold for one step only: what the last step drove (log 14: DESIGN CHOICE,
safe). -/
structure Strobes where
  /-- `rx_read`: the step removed the oldest byte of RXQ. -/
  rxRead : Bool
  /-- `tx_write` with `tx_frame`: the frame the step offered to the transport. -/
  txWrite : Option Frame
  /-- `yield`: the step was a poll that found no byte. -/
  yield : Bool
  deriving DecidableEq, Repr

/-- No strobe. -/
def Strobes.quiet : Strobes := { rxRead := false, txWrite := none, yield := false }

/-- What the outside world does between one step and the next, and what the inputs then show in that
next step (R7, R24, R26, R45, R47, R49; log 7: DESIGN CHOICE, unsafe
because an empty script is a quiet world; log 17: DESIGN CHOICE, safe). -/
structure Edge where
  /-- `rst` (R230). -/
  rst : Bool
  /-- `req` (R82). -/
  req : Bool
  /-- What the request inputs show; it has no effect when `req = 0` (R81, R82). -/
  word : ReqPorts
  /-- How many time units have passed since the step before (R49). -/
  advance : Nat
  /-- The bytes the peer has appended to RXQ since the step before, in order (R47). -/
  arrive : List Byte
  /-- A change of DRAINED by the transport since the step before, if any (R45). -/
  drained : Option Bool
  /-- `tx_count`, the transport's answer to a write in this step (R44). -/
  txCount : BitVec 4
  deriving DecidableEq, Repr

/-- An edge at which nothing happens and nothing is requested (R82: "In a step with req = 0 and BUSY
= 0 nothing changes"). -/
def Edge.quiet (txCount : BitVec 4) : Edge :=
  { rst := false, req := false, word := ReqPorts.idle, advance := 0, arrive := [],
    drained := none, txCount := txCount }

/-- The whole state. -/
structure State where
  /-- The parameters of R5; no step writes them (log 1: DESIGN CHOICE, safe). -/
  par : Params
  /-- ATT: Uninitialized or Ready (R10, R17, R215). -/
  att : Bool
  /-- TMO, the receive timeout (R18). -/
  tmo : Nat
  /-- PHASE (R14). -/
  phase : Phase
  /-- RXCNT (R15). -/
  rxcnt : BitVec 4
  /-- T0, `now` when RECEIVE started (R19). -/
  t0 : Nat
  /-- T1, `now` when the flush of SEND completed (R19). -/
  t1 : Nat
  /-- WSHORT (R10, R123). -/
  wshort : Bool
  /-- TXBUF (R11, R12). -/
  txbuf : Frame
  /-- RXBUF (R11, R12). -/
  rxbuf : Frame
  /-- LASTRAW (R13). -/
  lastraw : Frame
  /-- FOUT (R21). -/
  fout : Frame
  /-- BOUT (R21). -/
  bout : Byte
  /-- VOK (R17). -/
  vok : Bool
  /-- ERR (R20). -/
  err : ResultCode
  /-- RXQ, environment: bytes received and not yet read, oldest first (R24, R47). -/
  rxq : List Byte
  /-- TXLOG, environment: bytes the transport has accepted, oldest first (R24, R43). -/
  txlog : List Byte
  /-- DRAINED, environment (R24, R43, R45). -/
  drained : Bool
  /-- `now`, environment: the time input (R24, R49). -/
  now : Nat
  /-- `tx_count`, environment: the transport's answer shown in this step (R26, R44). -/
  txCount : BitVec 4
  /-- The strobes the last step drove (R26). -/
  out : Strobes
  /-- What the outside world will do, next edge first (log 7: DESIGN CHOICE, unsafe). -/
  inputs : List Edge
  /-- The model's own: how many free values have been drawn (log 3: DESIGN CHOICE, safe). -/
  fresh : Nat
  deriving DecidableEq, Repr

/-- Right after reset (R27, R230).  The registers R27 leaves unspecified hold zero (log 5: DESIGN
CHOICE, unsafe); the
environment, which the block does not reset, is the one the vectors of spec/95_test_vectors.md start
from (log 8: DESIGN CHOICE, unsafe). -/
def State.reset : State :=
  { par := Params.spec
    att := false
    tmo := Config.tmoDefault
    phase := .idle
    rxcnt := 0
    t0 := 0
    t1 := 0
    wshort := false
    txbuf := Frame.zero
    rxbuf := Frame.zero
    lastraw := Frame.zero
    fout := Frame.zero
    bout := 0
    vok := false
    err := .ok
    rxq := []
    txlog := []
    drained := true
    now := 0
    txCount := 9
    out := Strobes.quiet
    inputs := []
    fresh := 0 }

/-- Why the machine stops with a fault.  The spec gives the block no trap (R208, R212). -/
inductive Fault where
  /-- Raised by the step of RECEIVE that stores a byte, when RXCNT is above 8: an index outside the
  FRAME space, which the spec says cannot be formed (R41; log 16: DEDUCED).  Safe: no state that
  meets `Sys2Proof.Inv` raises it. -/
  | frameIndex
  deriving DecidableEq, Repr

/-- Why the model gives a step no meaning. -/
inductive Refusal where
  /-- Raised by `exec` for an instruction without a meaning; no arm does.  Safe. -/
  | notModelled (mnemonic : String)
  /-- Raised by every instruction when BUSY = 1: "a model gives such a request no step" (R82, U2;
  log 10: DEDUCED).  Safe. -/
  | requestWhileBusy
  /-- Raised by a step whose request shows `op` 0x0 or 0xA to 0xF (R83, U3).  Safe. -/
  | reservedOp (op : BitVec 4)
  /-- Raised by a step whose request shows a `tin` wider than W_T bits (R26; log 15:
  DEDUCED).  Safe. -/
  | tinTooWide
  /-- Raised by SEND and the named commands when the transport answers a write with a count above
  9, "outside the contract" (R44, U7; log 12: DEDUCED).  Safe. -/
  | txCountAboveNine
  deriving DecidableEq, Repr

/-- What an operation or a step answers. -/
abbrev Answer := Host.Outcome State Fault Refusal

end Sys2Proof.Machine
end

