-- ==== Sys2Proof/Machine/Operands.lean ====
section
/-! DEFINITION. Operand forms beyond the fields of an instruction: time values and elapsed time
(spec/20_memory.md R49), the bytes a write transfers (R44), the two streams (R43, R46, R47), and
what a step samples from its edge (R24, R26). -/

namespace Sys2Proof.Machine

open Sys2Proof

/-- A value on W_T wires (R6: `mod 2^W_T` is a truncation, R113). -/
def truncTime (w : Nat) (t : Nat) : Nat := t % 2 ^ w

/-- `(now - t) mod 2^W_T`, computed exactly and then reduced (R6, R7, R49). -/
def elapsed (w : Nat) (now t : Nat) : Nat := (((now : Int) - (t : Int)) % (2 ^ w : Int)).toNat

/-- `Elapsed(T0)` (R129). -/
def State.elapsedT0 (s : State) : Nat := elapsed s.par.wT s.now s.t0

/-- `Elapsed(T1)` (R125). -/
def State.elapsedT1 (s : State) : Nat := elapsed s.par.wT s.now s.t1

/-- `f[0..n-1]`, the bytes of `f` a write with count `n` transfers (R44). -/
def acceptedBytes (f : Frame) (n : Nat) : List Byte := f.toList.take n

/-- `RxAvail()`: RXQ is not empty (R46). -/
def State.rxAvail (s : State) : Bool := !s.rxq.isEmpty

/-- The edge the next step happens at.  With none left in the script nothing happens outside and
nothing is requested (log 7: DESIGN CHOICE, unsafe). -/
def State.edge (s : State) : Edge :=
  match s.inputs with
  | [] => Edge.quiet s.txCount
  | e :: _ => e

/-- What happened outside since the step before, and what the inputs show at edge `e`: time passes
modulo 2^W_T (R49; log 18: DESIGN CHOICE, safe), the peer's bytes join the tail of RXQ (R47),
DRAINED changes (R45; log 17: DESIGN CHOICE, safe), the transport's answer is presented (R44).  The strobes of the step before end. -/
def State.sampleEdge (e : Edge) (s : State) : State :=
  { s with
    now := truncTime s.par.wT (s.now + e.advance)
    rxq := s.rxq ++ e.arrive
    drained := e.drained.getD s.drained
    txCount := e.txCount
    out := Strobes.quiet
    inputs := s.inputs.tail }

/-- The state in which the next step's rule is applied. -/
def State.sampled (s : State) : State := s.sampleEdge s.edge

/-- Put an edge in front of the script. -/
def State.withEdge (s : State) (e : Edge) : State := { s with inputs := e :: s.inputs }

/-- A quiet edge at which a request is presented. -/
def requestEdge (txCount : BitVec 4) (word : ReqPorts) : Edge :=
  { Edge.quiet txCount with req := true, word := word }

/-- Present the request of a table word in the very next step. -/
def State.withTableWord (s : State) (nbits w : Nat) : State :=
  s.withEdge (requestEdge s.txCount (tableRequest nbits w))

end Sys2Proof.Machine
end

