-- ==== Sys2Proof/Machine/Flags.lean ====
section
/-! DEFINITION. The flags and conditions (spec/10_state.md R14, R17), the comparisons with the two
timers (spec/60_exceptions.md R216), and the numeric codes of PHASE and ERR (R14, R20). -/

namespace Sys2Proof.Machine

open Sys2Proof

/-- BUSY: PHASE is SEEKING_PREFIX, COLLECTING, TX_FLUSH or TX_SETTLE (R14). -/
def Phase.busy : Phase → Bool
  | .idle => false
  | .seekingPrefix => true
  | .collecting => true
  | .complete => false
  | .crcOk => false
  | .crcFail => false
  | .timeout => false
  | .txFlush => true
  | .txSettle => true

/-- BUSY as a derived signal of the state (R14, R17). -/
def State.busy (s : State) : Bool := s.phase.busy

/-- PHASE is one of the two busy states of RECEIVE (R129). -/
def State.receiving (s : State) : Bool :=
  (s.phase == .seekingPrefix) || (s.phase == .collecting)

/-- PHASE is one of the two busy states of SEND (R124, R125). -/
def State.sending (s : State) : Bool :=
  (s.phase == .txFlush) || (s.phase == .txSettle)

/-- The PHASE codes of R14. -/
def Phase.code : Phase → BitVec 4
  | .idle => 0x0
  | .seekingPrefix => 0x1
  | .collecting => 0x2
  | .complete => 0x3
  | .crcOk => 0x4
  | .crcFail => 0x5
  | .timeout => 0x6
  | .txFlush => 0x8
  | .txSettle => 0x9

/-- The ERR codes of R20. -/
def ResultCode.code : ResultCode → BitVec 3
  | .ok => 0
  | .timeoutE => 1
  | .crcE => 2
  | .invalidE => 3
  | .transportE => 4

/-- `Elapsed(T0) >= TMO` (R129, R133, R216). -/
abbrev State.deadlineReached (s : State) : Prop := s.tmo ≤ s.elapsedT0

/-- `Elapsed(T1) >= SETTLE` (R125, R216). -/
abbrev State.settled (s : State) : Prop := s.par.settle ≤ s.elapsedT1

/-- The value VERIFY gives VOK (R17, R109). -/
def vokOf (fin : Frame) : Bool := verify fin

/-- The result of a SEND that ran to its end: `WSHORT = 1 ? TRANSPORT_E : OK` (R125). -/
def State.sendResult (s : State) : ResultCode := if s.wshort then .transportE else .ok

end Sys2Proof.Machine
end

