-- ==== Sys2Proof/Machine/Ops.lean ====
section
/-! DEFINITION. The shared operations: accepting a request, ending an operation with or without an
error, the transport primitives, the frame buffers, reset.

The block has no traps: an error is the way an operation ends (spec/60_exceptions.md R208, R212),
written once here as `raiseError`; there is no return from one (R210). -/

namespace Sys2Proof.Machine

open Sys2Proof

/-- Request acceptance: only where BUSY = 0; otherwise the model gives no step (R82, U2;
log 10: DEDUCED, safe). -/
def accept (s : State) (k : State → Answer) : Answer :=
  if s.busy then .refused .requestWhileBusy else k s

/-- The end of an operation that cannot fail: `ERR <- OK` (R100, R150). -/
def finishOk (s : State) : State := { s with err := .ok }

/-- Error entry: PHASE and ERR as the raising rule says, and that is all (R208). -/
def raiseError (p : Phase) (e : ResultCode) (s : State) : State := { s with phase := p, err := e }

/-- FOUT after a RECEIVE without success: any value, drawn afresh (R21, R209, U5; log 3:
DESIGN CHOICE, safe). -/
def drawFout (s : State) : State :=
  { s with fout := Config.unspecFout s.fresh, fresh := s.fresh + 1 }

/-- A SEND is over: TXBUF, T1 and WSHORT no longer have a defined value (R12, R19, U6;
log 4: DESIGN CHOICE, safe). -/
def retireSend (s : State) : State :=
  { s with
    txbuf := Config.unspecTxbuf s.fresh
    t1 := truncTime s.par.wT (Config.unspecT1 s.fresh)
    wshort := Config.unspecWshort s.fresh
    fresh := s.fresh + 1 }

/-- A RECEIVE is over: RXBUF and T0 no longer have a defined value (R12, R19, U6;
log 4: DESIGN CHOICE, safe). -/
def retireReceive (s : State) : State :=
  { s with
    rxbuf := Config.unspecRxbuf s.fresh
    t0 := truncTime s.par.wT (Config.unspecT0 s.fresh)
    fresh := s.fresh + 1 }

/-- `TxWrite(TXBUF)` with the transport's answer `n`: `TXBUF[0..n-1]` joins TXLOG, and `n ≥ 1` makes
DRAINED false (R44). -/
def txWrite (n : Nat) (s : State) : State :=
  { s with
    txlog := s.txlog ++ acceptedBytes s.txbuf n
    drained := if n = 0 then s.drained else false
    out := { s.out with txWrite := some s.txbuf } }

/-- `RxRead()`: the head of RXQ leaves it (R47); none when RXQ is empty, where the block never calls
it (U4). -/
def rxRead (s : State) : Option (Byte × State) :=
  match s.rxq with
  | [] => none
  | b :: rest => some (b, { s with rxq := rest, out := { s.out with rxRead := true } })

/-- `Yield()`: the output `yield`, and no register changes (R48, R132). -/
def yieldPoll (s : State) : State := { s with out := { s.out with yield := true } }

/-- `RXBUF[RXCNT] <- b; RXCNT <- RXCNT + 1`; none where RXCNT is no frame index (R41, R131,
R140). -/
def storeRx (b : Byte) (s : State) : Option State :=
  match s.rxbuf.set? b s.rxcnt.toNat with
  | none => none
  | some f => some { s with rxbuf := f, rxcnt := s.rxcnt + 1 }

/-- State COMPLETE: the snapshot, before and regardless of the comparison, then the verdict, in this
same step (R13, R131, R202). -/
def completeFrame (s : State) : State :=
  let s := { s with phase := .complete, lastraw := s.rxbuf }
  if verify s.rxbuf then
    retireReceive { s with fout := s.rxbuf, phase := .crcOk, err := .ok }
  else
    retireReceive (drawFout (raiseError .crcFail .crcE s))

/-- Reset (R230): the registers at their reset values, those R230 leaves unspecified at free values
(log 4: DESIGN CHOICE, safe); RXQ, TXLOG, DRAINED and `now` are not the block's to reset. -/
def resetBlock (s : State) : State :=
  retireSend (retireReceive
    { s with
      att := false
      tmo := Config.tmoDefault
      phase := .idle
      rxcnt := 0
      lastraw := Frame.zero
      fout := Frame.zero
      bout := 0
      vok := false
      err := .ok })

/-- Why request inputs select no operation, as a refusal of the step that shows them (R83, R26). -/
def refusalOf : OpreqReject → Refusal
  | .reservedOp op => .reservedOp op
  | .tinTooWide => .tinTooWide

end Sys2Proof.Machine
end

