-- ==== Sys2Proof/Machine/Codec.lean ====
section
/-! DEFINITION. BUILD, SEAL, CHECKSUM and VERIFY (spec/40_codec_ops.md R100 to R109): one step, a
function of the operands alone, allowed in both modes. -/

namespace Sys2Proof.Machine

open Sys2Proof

/-- BUILD (R101, in the form of its pseudocode). -/
def execBuild (cmd : Byte) (val : Val) (s : State) : Answer :=
  accept s fun s => .next (finishOk { s with fout := buildCommand cmd val })

/-- CHECKSUM (R104). -/
def execChecksum (fin : Frame) (s : State) : Answer :=
  accept s fun s => .next (finishOk { s with bout := csum fin })

/-- VERIFY (R109). -/
def execVerify (fin : Frame) (s : State) : Answer :=
  accept s fun s => .next (finishOk { s with vok := vokOf fin })

/-- SEAL (R103). -/
def execSeal (fin : Frame) (s : State) : Answer :=
  accept s fun s => .next (finishOk { s with fout := sealFrame fin })

end Sys2Proof.Machine
end

