-- ==== Sys2Proof/Machine/Transport.lean ====
section
/-! DEFINITION. SEND and RECEIVE (spec/41_transport_ops.md): the start step of each is the meaning of
its instruction; the flush, settle and poll steps that follow are `continueOp`. -/

namespace Sys2Proof.Machine

open Sys2Proof

/-- After the write: the full write of R122, the short write of R123 under either policy; a count
above 9 is outside the contract (R44, U7; log 12: DEDUCED, safe). -/
def afterWrite (n : Nat) (s : State) : Answer :=
  if n = 9 then .next { s with wshort := false, phase := .txFlush }
  else if n < 9 then
    match s.par.shortWrite with
    | .abort => .next (retireSend (raiseError .idle .transportE s))
    | .complete => .next { s with wshort := true, phase := .txFlush }
  else .refused .txCountAboveNine

/-- The start step of SEND for command code `cmd` and payload `val`: rejected in Uninitialized
(R121); in Ready the frame is built, offered in one write, and the answer decides (R122, R123). -/
def sendStart (cmd : Byte) (val : Val) (s : State) : Answer :=
  if s.att then
    afterWrite s.txCount.toNat (txWrite s.txCount.toNat { s with txbuf := build cmd val })
  else .next (raiseError .idle .invalidE s)

/-- The start step of RECEIVE: rejected in Uninitialized (R127); in Ready T0 is latched and the search
for the prefix begins (R128). -/
def receiveStart (s : State) : Answer :=
  if s.att then .next { s with t0 := s.now, rxcnt := 0, phase := .seekingPrefix }
  else .next (drawFout (raiseError .idle .invalidE s))

/-- SEND (R120). -/
def execSend (cmd : Byte) (val : Val) (s : State) : Answer :=
  accept s (sendStart cmd val)

/-- RECEIVE (R126). -/
def execReceive (s : State) : Answer :=
  accept s receiveStart

/-- TX_FLUSH step (R124): a wait for DRAINED without a timeout (R246). -/
def flushStep (s : State) : Answer :=
  if s.drained then .next { s with t1 := s.now, phase := .txSettle } else .next s

/-- TX_SETTLE step (R125). -/
def settleStep (s : State) : Answer :=
  if s.settled then .next (retireSend (raiseError .idle s.sendResult s)) else .next s

/-- Poll step, deadline reached (R129). -/
def timeoutStep (s : State) : Answer :=
  .next (retireReceive (drawFout (raiseError .timeout .timeoutE s)))

/-- Poll step, seeking, the byte `b` was read (R130): kept as byte 0 when it is PREFIX, else
discarded. -/
def seekByte (b : Byte) (s : State) : Answer :=
  if b = Config.prefixByte then
    .next { s with rxbuf := { s.rxbuf with b0 := b }, rxcnt := 1, phase := .collecting }
  else .next s

/-- Poll step, collecting, the byte `b` was read (R131): any value is stored; the ninth completes the
frame. -/
def collectByte (b : Byte) (s : State) : Answer :=
  match storeRx b s with
  | some s' => if s'.rxcnt = 9 then .next (completeFrame s') else .next s'
  | none => .fault .frameIndex

/-- One poll step of RECEIVE (R133): the deadline first (log 11: DESIGN CHOICE of
the spec, unsafe), then at most one byte, handed to the rule of
the phase; without a byte, yield (R132). -/
def pollStep (onByte : Byte → State → Answer) (s : State) : Answer :=
  if s.deadlineReached then timeoutStep s
  else
    match rxRead s with
    | some (b, s') => onByte b s'
    | none => .next (yieldPoll s)

/-- The next step of the operation in progress (R82); in a resting phase nothing changes. -/
def continueOp (s : State) : Answer :=
  match s.phase with
  | .txFlush => flushStep s
  | .txSettle => settleStep s
  | .seekingPrefix => pollStep seekByte s
  | .collecting => pollStep collectByte s
  | .idle => .next s
  | .complete => .next s
  | .crcOk => .next s
  | .crcFail => .next s
  | .timeout => .next s

end Sys2Proof.Machine
end

