-- ==== Sys2Proof/Machine/Commands.lean ====
section
/-! DEFINITION. The seven named command frames (spec/43_command_frames.md R160 to R167).  "The block
emits it through SEND c, v" (R160): the meaning of a row of format FRAME9 is the start step of SEND
with its code and payload (log 2: DEDUCED, safe). -/

namespace Sys2Proof.Machine

open Sys2Proof

/-- C_ABC, code 0x79 (R161). -/
def execCAbc (val : Val) (s : State) : Answer := accept s (sendStart 0x79 val)

/-- C_READ, code 0x86 (R162). -/
def execCRead (val : Val) (s : State) : Answer := accept s (sendStart 0x86 val)

/-- C_ZERO, code 0x87 (R163). -/
def execCZero (val : Val) (s : State) : Answer := accept s (sendStart 0x87 val)

/-- C_SPAN, code 0x88 (R164). -/
def execCSpan (val : Val) (s : State) : Answer := accept s (sendStart 0x88 val)

/-- C_RANGE, code 0x99 (R165). -/
def execCRange (val : Val) (s : State) : Answer := accept s (sendStart 0x99 val)

/-- C_LOCK, code 0x9F (R166). -/
def execCLock (val : Val) (s : State) : Answer := accept s (sendStart 0x9F val)

/-- C_VERSION, code 0xA0 (R167). -/
def execCVersion (val : Val) (s : State) : Answer := accept s (sendStart 0xA0 val)

end Sys2Proof.Machine
end

