-- ==== Sys2Proof/Machine/ConfigOps.lean ====
section
/-! DEFINITION. ATTACH, SETTMO and RDLAST (spec/42_config_ops.md R150 to R153): one step, none can
fail, allowed in both modes. -/

namespace Sys2Proof.Machine

open Sys2Proof

/-- ATTACH (R151). -/
def execAttach (s : State) : Answer :=
  accept s fun s => .next (finishOk { s with att := true })

/-- SETTMO (R152); TMO keeps W_T bits of the operand (R18; log 15: DEDUCED, safe). -/
def execSetTmo (tin : Nat) (s : State) : Answer :=
  accept s fun s => .next (finishOk { s with tmo := truncTime s.par.wT tin })

/-- RDLAST (R153). -/
def execRdLast (s : State) : Answer :=
  accept s fun s => .next (finishOk { s with fout := s.lastraw })

end Sys2Proof.Machine
end

