-- ==== Sys2Proof/Machine/Dispatch.lean ====
section
/-! DEFINITION. One arm per instruction. -/

namespace Sys2Proof.Machine

open Sys2Proof

def exec (i : Instr) (s : State) : Host.Outcome State Fault Refusal :=
  match i with
  | .build cmd val => Sys2Proof.Machine.execBuild cmd val s
  | .checksum fin => Sys2Proof.Machine.execChecksum fin s
  | .verify fin => Sys2Proof.Machine.execVerify fin s
  | .sealFrame fin => Sys2Proof.Machine.execSeal fin s
  | .send cmd val => Sys2Proof.Machine.execSend cmd val s
  | .receive => Sys2Proof.Machine.execReceive s
  | .attach => Sys2Proof.Machine.execAttach s
  | .setTmo tin => Sys2Proof.Machine.execSetTmo tin s
  | .rdLast => Sys2Proof.Machine.execRdLast s
  | .cAbc val => Sys2Proof.Machine.execCAbc val s
  | .cRead val => Sys2Proof.Machine.execCRead val s
  | .cZero val => Sys2Proof.Machine.execCZero val s
  | .cSpan val => Sys2Proof.Machine.execCSpan val s
  | .cRange val => Sys2Proof.Machine.execCRange val s
  | .cLock val => Sys2Proof.Machine.execCLock val s
  | .cVersion val => Sys2Proof.Machine.execCVersion val s

end Sys2Proof.Machine
end

