-- ==== Sys2Proof/Machine/Cycle.lean ====
section
/-! DEFINITION. One clock edge (spec/10_state.md R26, spec/30_encoding.md R82): reset first, then a
request, else the next step of the operation in progress. -/

namespace Sys2Proof.Machine

open Sys2Proof

/-- A request: the instruction the decoder reads is executed; a word that is none is refused by name
(R83, R86). -/
def requestStep (word : ReqPorts) (s : State) : Answer :=
  match decodeOpreq s.par.wT word with
  | .ok i => exec i s
  | .error r => .refused (refusalOf r)

/-- The block's step at edge `e`, in the sampled state.  `rst = 1` wins whatever else the inputs show
(R230); `req = 1` is a request (R82); otherwise the operation in progress goes on, and with none
nothing changes (R82). -/
def blockStep (e : Edge) (s : State) : Answer :=
  if e.rst then .next (resetBlock s)
  else if e.req then requestStep e.word s
  else continueOp s

/-- One step of the machine: the outside world's part since the step before, then the block's. -/
def cycle (s : State) : Answer := blockStep s.edge s.sampled

end Sys2Proof.Machine
end

