-- ==== Sys2Proof/Machine/Step.lean ====
section
/-! DEFINITION. The step, and the presentation of a table word to it. -/

namespace Sys2Proof.Machine

open Sys2Proof

/-- One step: one rule application, atomic (spec/00_scope.md R6). -/
def step (s : State) : Host.Outcome State Fault Refusal := cycle s

/-- `s` with the request of a table word presented in the very next step (log 6: DEDUCED, unsafe; log 9:
DEDUCED, safe). -/
def State.withFetchWord (s : State) (nbits w : Nat) : State := s.withTableWord nbits w

end Sys2Proof.Machine
end

