-- ==== Sys2Proof/Machine/Driver.lean ====
section
/-! DEFINITION. The surrounding software of spec/44_driver_pseudo_ops.md, as its requests, its
arithmetic, and its calls as they run on the block.  It is outside the block (spec/00_scope.md R4), keeps its own state (R25), and no step of
the machine uses it; it is written here so that nothing of the spec is lost (log 19: DEDUCED, safe). -/

namespace Sys2Proof.Machine

open Sys2Proof

/-- CONC: `f[2] * 256 + f[3]` (R74). -/
def conc (f : Frame) : Nat := f.b2.toNat * 256 + f.b3.toNat

/-- TRAW: `f[4]` (R74). -/
def traw (f : Frame) : Byte := f.b4

/-- VDISC: `max(f[2], f[3])` (R74). -/
def vdisc (f : Frame) : Nat := max f.b2.toNat f.b3.toNat

/-- VARIANT (R25). -/
inductive Variant where
  | unknown
  | b
  | c
  | d
  deriving DecidableEq, Repr

/-- The software's state (R25).  FWIN, FSUM and FCNT are numbers without bound, because the spec gives
them no width (N4, N14; log 24: DESIGN CHOICE, unsafe). -/
structure Software where
  variant : Variant
  fwin : Nat
  fsum : Nat
  fcnt : Nat
  deriving DecidableEq, Repr

/-- The software's initial state: VARIANT is Unknown (R25).  The initial window, which is at least 1
(R25), and the initial accumulators are not stated (N14), so they are parameters (U14). -/
def Software.initial (window sum count : Nat) : Software :=
  { variant := .unknown, fwin := max window 1, fsum := sum, fcnt := count }

/-- The public operations of the software (R181 to R192). -/
inductive PseudoOp where
  | initDriver
  | detectVariant
  | readCO2
  | readTemperature
  | calibrateZero
  /-- `ppm` is "a 16-bit unsigned value" (R186). -/
  | calibrateSpan (ppm : Val)
  | enableAutoCalibration (on : Bool)
  /-- The spec's source calls `range` an "integer" and gives it no type (N18): any integer, without
  bound and of either sign (log 23: DESIGN CHOICE, safe). -/
  | setRange (range : Int)
  /-- "code 16 bits" (R189). -/
  | unlock (code : Val)
  | lock
  /-- The spec gives `n` no width or sign (N4): any integer, without bound (log 24: DESIGN CHOICE,
  unsafe). -/
  | setFilterWindow (n : Int)
  | lastRawResponse
  deriving DecidableEq, Repr

/-- What a pseudo-operation returns. -/
inductive DriverResult where
  | done
  | failed (e : ResultCode)
  | concentration (ppm : Nat)
  | temperature (degrees : Int)
  | variant (v : Variant)
  | frame (f : Frame)
  deriving DecidableEq, Repr

/-- `range ∈ {2000, 5000}` (R188). -/
def rangeAccepted (range : Int) : Bool := (range == 2000) || (range == 5000)

/-- The block operations of a pseudo-operation, in order (R85); in an exchange the second is requested
only if the first ends with OK (R180). -/
def PseudoOp.requests : PseudoOp → List Instr
  | .initDriver => [.attach, .send 0xA0 0, .receive]
  | .detectVariant => [.send 0xA0 0, .receive]
  | .readCO2 => [.send 0x86 0, .receive]
  | .readTemperature => [.send 0x86 0, .receive]
  | .calibrateZero => [.send 0x87 0, .receive]
  | .calibrateSpan ppm => [.send 0x88 ppm, .receive]
  | .enableAutoCalibration on => [.send 0x79 (if on then 0x00A0 else 0x0000), .receive]
  | .setRange range => if rangeAccepted range then [.send 0x99 (BitVec.ofInt 16 range), .receive] else []
  | .unlock code => [.send 0x9F code, .receive]
  | .lock => [.send 0x9F 0, .receive]
  | .setFilterWindow _ => []
  | .lastRawResponse => [.rdLast]

/-- The result of `exchange(c, v)` from ERR after the SEND, ERR after the RECEIVE and FOUT then
(R180). -/
def exchangeResult (sendErr recvErr : ResultCode) (fout : Frame) : Except ResultCode Frame :=
  if sendErr ≠ .ok then .error sendErr
  else if recvErr ≠ .ok then .error recvErr
  else .ok fout

/-- The classification of `detectVariant()` (R182). -/
def classifyVariant (r : Except ResultCode Frame) : Variant :=
  match r with
  | .error _ => .unknown
  | .ok f => if 0x30 ≤ vdisc f then .d else if 0x14 ≤ vdisc f then .c else .b

/-- The filter of `readCO2()` (R183): a batch average, emitted by the call that fills the window. -/
def filterReading (raw : Nat) (w : Software) : Nat × Software :=
  if w.fwin ≤ 1 then (raw, w)
  else
    let w := { w with fsum := w.fsum + raw, fcnt := w.fcnt + 1 }
    if w.fwin ≤ w.fcnt then (w.fsum / w.fwin, { w with fsum := 0, fcnt := 0 }) else (raw, w)

/-- The filter over several raw readings in a row: what each call returns, and the state after the
last. -/
def filterReadings : List Nat → Software → List Nat × Software
  | [], w => ([], w)
  | raw :: rest, w =>
    let r := filterReading raw w
    let t := filterReadings rest r.2
    (r.1 :: t.1, t.2)

/-- `return exchange(c, v)`: the error, or "OK with frame r = FOUT" (R180).  So end the configuration
commands (R185 to R190).  That they do nothing else with the response is the spec's reading of a source
that does not say (N12, C12; log 22: DESIGN CHOICE of the spec, unsafe). -/
def reportExchange (r : Except ResultCode Frame) : DriverResult :=
  match r with
  | .error e => .failed e
  | .ok f => .frame f

/-- What a pseudo-operation returns and leaves in the software's state, given how its exchange ended
(R181 to R191).  For `lastRawResponse` the frame is FOUT after RDLAST (R192). -/
def PseudoOp.finish (p : PseudoOp) (r : Except ResultCode Frame) (w : Software) :
    DriverResult × Software :=
  match p with
  | .initDriver => (.done, { w with variant := classifyVariant r })
  | .detectVariant => (.variant (classifyVariant r), w)
  | .readCO2 =>
    match r with
    | .error e => (.failed e, w)
    | .ok f => (.concentration (filterReading (conc f) w).1, (filterReading (conc f) w).2)
  | .readTemperature =>
    match r with
    | .error e => (.failed e, w)
    | .ok f => (.temperature ((traw f).toNat - 40), w)
  | .calibrateZero => (reportExchange r, w)
  | .calibrateSpan _ => (reportExchange r, w)
  | .enableAutoCalibration _ => (reportExchange r, w)
  | .setRange range => if rangeAccepted range then (reportExchange r, w) else (.failed .invalidE, w)
  | .unlock _ => (reportExchange r, w)
  | .lock => (reportExchange r, w)
  | .setFilterWindow n => (.done, { w with fwin := (max n 1).toNat, fsum := 0, fcnt := 0 })
  | .lastRawResponse =>
    match r with
    | .error e => (.failed e, w)
    | .ok f => (.frame f, w)

/-! ## A call as it runs on the block (R180)

The software requests its block operations one after another, each when the one before has ended, and
returns at once where one ended with an error: after a failed SEND no RECEIVE is requested. -/

/-- A call in progress. -/
structure DriverCall where
  op : PseudoOp
  /-- The block operations still to be requested, in order. -/
  todo : List Instr
  /-- The call has requested an operation, so that ERR is that operation's result. -/
  started : Bool
  deriving DecidableEq, Repr

/-- A call just made. -/
def PseudoOp.call (p : PseudoOp) : DriverCall := { op := p, todo := p.requests, started := false }

/-- What the software does next. -/
inductive DriverMove where
  | wait
  | request (i : Instr)
  | report (r : Except ResultCode Frame)
  deriving DecidableEq, Repr

/-- The software waits while BUSY = 1 (R82); then "if ERR != OK then return ERR" for the operation that
ended, and otherwise the next request, or FOUT after the last (R180).  That it acts at the first step
at which BUSY = 0 is log 25 (DESIGN CHOICE, safe). -/
def DriverCall.move (c : DriverCall) (s : State) : DriverMove :=
  if s.busy then .wait
  else if c.started = true ∧ s.err ≠ .ok then .report (.error s.err)
  else
    match c.todo with
    | [] => .report (.ok s.fout)
    | i :: _ => .request i

/-- The next edge, with the software's request inputs in place of the script's: a request for `i`, or
none.  The software never asserts `rst`. -/
def State.hostEdge (s : State) (i : Option Instr) : Edge :=
  match i with
  | none => { s.edge with rst := false, req := false }
  | some i => { s.edge with rst := false, req := true, word := requestOf i }

/-- `s` at that edge. -/
def State.withHost (s : State) (i : Option Instr) : State :=
  { s with inputs := s.hostEdge i :: s.inputs.tail }

/-- How a call stands after some moves. -/
inductive CallOutcome where
  /-- It has returned `r` and left the software in state `w` and the block in state `s`. -/
  | returned (r : DriverResult) (w : Software) (s : State)
  /-- It goes on. -/
  | pending (c : DriverCall) (s : State)
  /-- The block's step had no next state. -/
  | stopped
  deriving DecidableEq, Repr

/-- A call after at most `n` moves, from block state `s` and software state `w`; the script in `s` is
the environment's. -/
def DriverCall.run : Nat → DriverCall → Software → State → CallOutcome
  | 0, c, _, s => .pending c s
  | n + 1, c, w, s =>
    match c.move s with
    | .report r => .returned (c.op.finish r w).1 (c.op.finish r w).2 s
    | .wait =>
      match step (s.withHost none) with
      | .next t => DriverCall.run n c w t
      | .fault _ => .stopped
      | .refused _ => .stopped
    | .request i =>
      match step (s.withHost (some i)) with
      | .next t => DriverCall.run n { c with todo := c.todo.tail, started := true } w t
      | .fault _ => .stopped
      | .refused _ => .stopped

end Sys2Proof.Machine
end

