-- ==== Sys2Proof/Machine/Ports.lean ====
section
/-! DEFINITION. The output ports of spec/10_state.md R26, as bits. -/

namespace Sys2Proof.Machine

open Sys2Proof

/-- The outputs of R26.  `txFrame` is meaningful when `txWrite` is set and the spec gives it no value
otherwise, so it is then absent. -/
structure OutPorts where
  rxRead  : Bool
  txWrite : Bool
  txFrame : Option (BitVec 72)
  txFlush : Bool
  yield   : Bool
  busy    : Bool
  att     : Bool
  phase   : BitVec 4
  rxcnt   : BitVec 4
  err     : BitVec 3
  vok     : Bool
  bout    : Byte
  fout    : BitVec 72
  lastraw : BitVec 72
  deriving DecidableEq, Repr

/-- What the outputs show (R26): the strobes of the last step, BUSY, "the block is waiting in
`TxFlush()`", and the registers the host sees (R10, R219). -/
def State.outPorts (s : State) : OutPorts :=
  { rxRead := s.out.rxRead
    txWrite := s.out.txWrite.isSome
    txFrame := s.out.txWrite.map Frame.bits
    txFlush := s.phase == .txFlush
    yield := s.out.yield
    busy := s.busy
    att := s.att
    phase := s.phase.code
    rxcnt := s.rxcnt
    err := s.err.code
    vok := s.vok
    bout := s.bout
    fout := s.fout.bits
    lastraw := s.lastraw.bits }

/-- `rx_byte`: the oldest byte of RXQ, meaningful when `rx_avail = 1` (R26). -/
def State.rxByte (s : State) : Option Byte := s.rxq.head?

end Sys2Proof.Machine
end

