-- ==== Sys2Proof/Safety.lean ====
section
/-! DEFINITION. What counts as a sound state (spec/10_state.md R28) and what the host and the transport
owe the block for a step to be inside the spec (spec/30_encoding.md R82, R83, spec/20_memory.md R44),
in the terms the statements use. -/

namespace Sys2Proof

open Sys2Proof.Machine

/-- The invariants of R28, with the ranges of R15, R18, R19 and R49 that make them hold step by
step. -/
structure Inv (s : State) : Prop where
  /-- The parameters fit W_T bits (R5). -/
  par : s.par.wf
  /-- TMO, T0, T1 and `now` are W_T-bit values (R10, R49). -/
  tmo : s.tmo < 2 ^ s.par.wT
  t0 : s.t0 < 2 ^ s.par.wT
  t1 : s.t1 < 2 ^ s.par.wT
  now : s.now < 2 ^ s.par.wT
  /-- RXCNT is 0 to 9 (R15). -/
  rxcnt : s.rxcnt.toNat ≤ 9
  /-- R28 item 1. -/
  seeking : s.phase = .seekingPrefix → s.rxcnt = 0
  /-- R28 item 2. -/
  collecting : s.phase = .collecting →
    1 ≤ s.rxcnt.toNat ∧ s.rxcnt.toNat ≤ 8 ∧ s.rxbuf.b0 = Config.prefixByte
  /-- R28 item 3. -/
  crcOk : s.phase = .crcOk →
    s.rxcnt = 9 ∧ s.err = .ok ∧ s.lastraw.b0 = Config.prefixByte ∧ verify s.lastraw = true
  /-- R28 item 4. -/
  crcFail : s.phase = .crcFail →
    s.rxcnt = 9 ∧ s.lastraw.b0 = Config.prefixByte ∧ verify s.lastraw = false
  /-- R28 item 5. -/
  timeout : s.phase = .timeout → s.rxcnt.toNat ≤ 8
  /-- R28 item 6. -/
  noComplete : s.phase ≠ .complete
  /-- R28 item 7. -/
  busyReady : s.busy = true → s.att = true
  /-- R28 item 8. -/
  snapshot : s.lastraw = Frame.zero ∨ s.lastraw.b0 = Config.prefixByte

/-- The next edge keeps the contract in state `s`: a count of at most 9 (R44), and a request only when
BUSY = 0 and only for something the block offers (R82, R83).  With `rst = 1` the rest is ignored
(R230). -/
def EdgeInContract (s : State) : Prop :=
  s.edge.rst = true ∨
    (s.edge.txCount.toNat ≤ 9 ∧
      (s.edge.req = true → s.busy = false ∧ ∃ i, decodeOpreq s.par.wT s.edge.word = .ok i))

/-- An edge at which the block goes on by itself: neither reset nor a request. -/
def EdgeIdle (e : Edge) : Prop := e.rst = false ∧ e.req = false

/-- The next step is a request, not overridden by reset, and what it shows decodes to `i`. -/
def Requested (s : State) (i : Instr) : Prop :=
  s.edge.rst = false ∧ s.edge.req = true ∧ decodeOpreq s.par.wT s.edge.word = .ok i

/-- How many time units pass over the edges `es`. -/
def totalAdvance (es : List Edge) : Nat := (es.map Edge.advance).sum

/-- All the bytes that arrive over the edges `es`, in order. -/
def arrivals (es : List Edge) : List Byte := es.flatMap Edge.arrive

/-! ## Progress (spec/41_transport_ops.md R139)

"The rules say what a step does, not when steps happen": that a SEND or a RECEIVE ends rests on three
assumptions about an environment that goes on for ever.  No step assumes them. -/

/-- What the outside world does, edge by edge, for ever. -/
abbrev Environment := Nat → Edge

/-- The first `k` edges. -/
def Environment.first (env : Environment) (k : Nat) : List Edge := (List.range k).map env

/-- The edges from `m` on. -/
def Environment.after (env : Environment) (m : Nat) : Environment := fun n => env (m + n)

/-- R139 (a): the block keeps taking steps, and neither reset nor a request ends the operation or
stops the run. -/
def KeepsStepping (env : Environment) : Prop := ∀ n, EdgeIdle (env n)

/-- R139 (b) for one timer: at some step the elapsed time, modulo 2^W_T, has reached `bound`, where
`start` had elapsed before the first edge. -/
def TimeReaches (w start bound : Nat) (env : Environment) : Prop :=
  ∃ n, bound ≤ (start + totalAdvance (env.first (n + 1))) % 2 ^ w

/-- DRAINED after the edges `es`, if it was `d` before them and the block writes nothing (R45). -/
def drainedAfter (d : Bool) (es : List Edge) : Bool :=
  es.foldl (fun d e => e.drained.getD d) d

/-- R139 (c): at some step DRAINED is true. -/
def DrainsEventually (d : Bool) (env : Environment) : Prop :=
  ∃ n, drainedAfter d (env.first (n + 1)) = true

/-- `k` steps from `s` in an environment. -/
def runIn (env : Environment) (k : Nat) (s : State) : Answer :=
  core.run k { s with inputs := env.first k }

/-- R139 for a RECEIVE in progress: "Under (a) and (b) every RECEIVE ends". -/
structure ReceiveProgress (s : State) (env : Environment) : Prop where
  stepping : KeepsStepping env
  deadline : TimeReaches s.par.wT s.elapsedT0 s.tmo env

/-- R139 for a SEND in progress: "under (a), (b) and (c) every SEND ends".  T1 is latched by whichever
step sees the drain, so (b) is asked of every start. -/
structure SendProgress (s : State) (env : Environment) : Prop where
  stepping : KeepsStepping env
  settle : ∀ m, TimeReaches s.par.wT 0 s.par.settle (env.after m)
  settling : s.phase = .txSettle → TimeReaches s.par.wT s.elapsedT1 s.par.settle env
  drain : s.phase = .txFlush → DrainsEventually s.drained env

/-- `t` keeps what SEND must not write: FOUT, BOUT, VOK, LASTRAW, RXBUF, RXCNT, T0, TMO, ATT, and RXQ
(R120). -/
def KeepsReceiveSide (s t : State) : Prop :=
  t.fout = s.fout ∧ t.bout = s.bout ∧ t.vok = s.vok ∧ t.lastraw = s.lastraw ∧
    t.rxbuf = s.rxbuf ∧ t.rxcnt = s.rxcnt ∧ t.t0 = s.t0 ∧ t.tmo = s.tmo ∧ t.att = s.att ∧
    t.rxq = s.rxq

/-- `t` keeps what RECEIVE must not write: TXBUF, T1, WSHORT, TMO, ATT, VOK, BOUT, and the transmit
side of the transport (R126). -/
def KeepsSendSide (s t : State) : Prop :=
  t.txbuf = s.txbuf ∧ t.t1 = s.t1 ∧ t.wshort = s.wshort ∧ t.tmo = s.tmo ∧ t.att = s.att ∧
    t.vok = s.vok ∧ t.bout = s.bout ∧ t.txlog = s.txlog ∧ t.drained = s.drained

/-- `s` and `t` differ at most in registers that no port shows and that have no defined value: TXBUF,
T1 outside TX_SETTLE, WSHORT outside SEND, T0 outside RECEIVE, RXBUF outside RECEIVE and its bytes
from index RXCNT on (R12, R19, U6). -/
structure SameDefined (s t : State) : Prop where
  visible : t = { s with txbuf := t.txbuf, t1 := t.t1, wshort := t.wshort, rxbuf := t.rxbuf,
                         t0 := t.t0 }
  sendFlag : s.sending = true → t.wshort = s.wshort
  settleStart : s.phase = .txSettle → t.t1 = s.t1
  receiveStart : s.receiving = true → t.t0 = s.t0
  assembled : s.receiving = true →
    t.rxbuf.toList.take s.rxcnt.toNat = s.rxbuf.toList.take s.rxcnt.toNat

end Sys2Proof
end

