-- ==== Sys2Proof/Certificates/Slice0/Obligations.lean ====
section
/-! DEFINITION. The statements for the provers. -/

open Sys2Proof Sys2Proof.Machine

/-! ## The checksum and the frame (spec/40_codec_ops.md, spec/30_encoding.md) -/

/-- R106: the six forms of the checksum are the same function of the sum. -/
def Obligations.ChecksumFormsAgree : Prop :=
  ∀ f : Frame,
    csum f = BitVec.ofNat 8 (256 - sumBytes f % 256) ∧
    csum f = BitVec.ofNat 8 ((256 - sumBytes f % 256) % 256) ∧
    csum f = BitVec.ofNat 8 (255 - sumBytes f % 256 + 1) ∧
    csum f = BitVec.ofInt 8 ((0 - (sumBytes f : Int)) % 256) ∧
    csum f = BitVec.ofNat 8 (((~~~ (BitVec.ofNat 8 (sumBytes f % 256))).toNat + 1) % 256) ∧
    ∀ c : Byte, (sumBytes f + c.toNat) % 256 = 0 ↔ c = csum f

/-- R107: at the zero edge the checksum byte is 0x00, and CHECKSUM ends without an error. -/
def Obligations.ChecksumZeroEdge : Prop :=
  (∀ (f : Frame) (s : State), sumBytes f % 256 = 0 → s.busy = false →
    csum f = 0x00 ∧ exec (.checksum f) s = .next { s with bout := 0x00, err := .ok }) ∧
  (∀ b0 b8 : Byte, csum ⟨b0, 0, 0, 0, 0, 0, 0, 0, b8⟩ = 0x00) ∧
  build 0x86 0x0079 = ⟨0xFF, 0x01, 0x86, 0x00, 0x79, 0x00, 0x00, 0x00, 0x00⟩

/-- R105: the sum is at most 1785, and an accumulator of 8 bits or more gives the same checksum. -/
def Obligations.AccumulatorWidthDoesNotMatter : Prop :=
  ∀ (f : Frame) (k : Nat), 8 ≤ k →
    sumBytes f ≤ 1785 ∧
    csum f = BitVec.ofNat 8 ((256 - sumBytes f % 2 ^ k % 256) % 256)

/-- R108: the checksum is a bijective function of the sum modulo 256, and every byte occurs. -/
def Obligations.ChecksumIsBijectiveInTheSum : Prop :=
  (∀ f g : Frame, csum f = csum g ↔ sumBytes f % 256 = sumBytes g % 256) ∧
  ∀ c : Byte, ∃ f : Frame, csum f = c

/-- R110: the equivalent test with one eight-byte sum. -/
def Obligations.VerifyIffBytesSumToZero : Prop :=
  ∀ f : Frame, verify f = true ↔ (sumBytes f + f.b8.toNat) % 256 = 0

/-- R111: a flip of one bit in bytes 1 to 8 of a frame that verifies is detected, one in byte 0 is
not. -/
def Obligations.SingleBitFlipDetected : Prop :=
  (∀ (f g : Frame) (i j : Nat) (b : Byte), 1 ≤ i → i ≤ 8 → j < 8 →
    f.get? i = some b → f.set? (b ^^^ (1#8 <<< j)) i = some g →
    verify f = true → verify g = false) ∧
  ∀ (f : Frame) (j : Nat), verify { f with b0 := f.b0 ^^^ (1#8 <<< j) } = verify f

/-- R112: a permutation of bytes 1 to 8 (a), changes of bytes 1 to 8 whose sum is 0 modulo 256 (b), for
instance in bytes 2 and 3, and a change of byte 0 (c) are not detected. -/
def Obligations.CancellingChangesNotDetected : Prop :=
  (∀ f g : Frame, g.toList.tail.Perm f.toList.tail → verify g = verify f) ∧
  (∀ f g : Frame, (sumBytes g + g.b8.toNat) % 256 = (sumBytes f + f.b8.toNat) % 256 →
    verify g = verify f) ∧
  (∀ (f : Frame) (b : Byte), verify { f with b0 := b } = verify f) ∧
  ∀ (f : Frame) (d : Byte), verify { f with b2 := f.b2 + d, b3 := f.b3 - d } = verify f

/-- R103, its properties. -/
def Obligations.SealMakesFramesVerify : Prop :=
  (∀ p : Frame, verify (sealFrame p) = true ∧ sealFrame (sealFrame p) = sealFrame p ∧
    (sealFrame p = p ↔ verify p = true)) ∧
  ∀ (c : Byte) (v : Val) (x : Byte),
    build c v = sealFrame ⟨0xFF, 0x01, c, valHi v, valLo v, 0x00, 0x00, 0x00, x⟩

/-- R102: the guarded and the unguarded split give the same frame; payload zero is no payload. -/
def Obligations.PayloadZeroIsNoPayload : Prop :=
  (∀ (c : Byte) (v : Val), buildCommand c v = build c v) ∧
  (∀ c : Byte, (build c 0).b3 = 0x00 ∧ (build c 0).b4 = 0x00) ∧
  PseudoOp.lock.requests = (PseudoOp.unlock 0).requests ∧
  (PseudoOp.enableAutoCalibration false).requests = [.send 0x79 0, .receive]

/-- R71: the command frames are exactly the frames with the constant bytes and the right checksum,
and each belongs to one code and payload. -/
def Obligations.CommandFramesCharacterised : Prop :=
  (∀ f : Frame,
    (f.bits &&& 0xFFFF000000FFFFFF00 = 0xFF0100000000000000 ∧ f.b8 = csum f) ↔
      ∃ (c : Byte) (v : Val), f = build c v) ∧
  ∀ (c d : Byte) (v x : Val), build c v = build d x → c = d ∧ v = x

/-! ## Encoding (spec/30_encoding.md) -/

/-- Decoding the word of a well-formed instruction gives it back, for every instruction, every operand
value and every width W_T (R76, R80, R86).  A frame is read by the classifier of R86, which no step
calls. -/
def Obligations.DecodeOfEncode : Prop :=
  ∀ (w : Nat) (i : Instr), i.wf w = true → decode w (encode i) = .ok i

/-- What the decoder reads is well-formed and shows its row's fixed bits, the match and mask of R76 or
the `op` pattern of R80.  A `tin` has the W_T bits of its port (R26); that a wider one is refused is the
model's choice (log 15). -/
def Obligations.DecodedShowsItsRow : Prop :=
  ∀ (w : Nat) (x : TableWord) (i : Instr), decode w x = .ok i →
    i.wf w = true ∧ (rowPattern i).fits x = true

/-- Each frame the classifier of R86 accepts is the word of the instruction it reads, and of no
other. -/
def Obligations.FrameHasOneReading : Prop :=
  ∀ (w : Nat) (f : Frame) (i : Instr), decode w (.frame9 f) = .ok i ↔ encode i = .frame9 f

/-- R80: operand inputs an operation does not list are ignored. -/
def Obligations.UnlistedOperandsIgnored : Prop :=
  ∀ (w : Nat) (p q : ReqPorts), p.op = q.op →
    ((p.op = 0x1 ∨ p.op = 0x5) → p.cmd = q.cmd ∧ p.val = q.val) →
    ((p.op = 0x2 ∨ p.op = 0x3 ∨ p.op = 0x4) → p.fin = q.fin) →
    (p.op = 0x8 → p.tin = q.tin) →
    decode w (.opreq p) = decode w (.opreq q)

/-- R86: the rows of one format never overlap: a word shows the fixed bits of one row at most. -/
def Obligations.RowsNeverOverlap : Prop :=
  ∀ (i j : Instr) (x : TableWord), (rowPattern i).fits x = true → (rowPattern j).fits x = true →
    i.row = j.row

/-- Words written out from R76 and R80 decode to the instructions they stand for.  That operands without
bits in the table are zero is the model's choice (log 6). -/
def Obligations.SpecWordsDecode : Prop :=
  decodeTableWord 8 0x1 = some (.build 0 0) ∧
  decodeTableWord 8 0x6 = some .receive ∧
  decodeTableWord 8 0x9 = some .rdLast ∧
  decodeTableWord 72 0xFF0186000000000079 = some (.cRead 0) ∧
  decodeTableWord 72 0xFF01991388000000CB = some (.cRange 5000)

/-- R83: a request with a reserved selector is refused, not a no-op. -/
def Obligations.ReservedSelectorsRefused : Prop :=
  ∀ (s : State) (p : ReqPorts), s.edge.rst = false → s.edge.req = true → s.edge.word = p →
    (p.op = 0x0 ∨ 0xA ≤ p.op) → step s = .refused (.reservedOp p.op)

/-! ## The step (spec/30_encoding.md R82, spec/10_state.md R24) -/

/-- A step whose request decodes runs that instruction, in the state in which the outside world's part
since the step before has taken effect; so does a step that shows the request of a well-formed
instruction (for a command frame that of the SEND which emits it, R160; log 2), and a step to which a
word of the table is presented (log 6, log 9).  The script of edges is the model's choice (log 7,
log 17). -/
def Obligations.StepRunsDecodedInstruction : Prop :=
  (∀ (s : State) (i : Instr), s.edge.rst = false → s.edge.req = true →
    decodeOpreq s.par.wT s.edge.word = .ok i → step s = exec i s.sampled) ∧
  (∀ (s : State) (i : Instr), s.edge.rst = false → s.edge.req = true →
    i.wf s.par.wT = true → s.edge.word = requestOf i → step s = exec i s.sampled) ∧
  (∀ (s : State) (nbits w : Nat) (i : Instr), s.par.wT = Params.spec.wT →
    decodeTableWord nbits w = some i →
    step (s.withFetchWord nbits w) = exec i (s.withFetchWord nbits w).sampled) ∧
  ∀ s : State, s.sampled =
    { s with
      now := (s.now + s.edge.advance) % 2 ^ s.par.wT
      rxq := s.rxq ++ s.edge.arrive
      drained := s.edge.drained.getD s.drained
      txCount := s.edge.txCount
      out := Strobes.quiet
      inputs := s.inputs.tail }

/-- R82: requests are accepted only where BUSY = 0; without a request nothing changes where BUSY = 0
and the operation in progress goes on where BUSY = 1, whatever the operand inputs show.  The
refusal is the treatment R82 and U2 give (log 10). -/
def Obligations.RequestAcceptance : Prop :=
  (∀ (i : Instr) (s : State), s.busy = true → exec i s = .refused .requestWhileBusy) ∧
  (∀ s : State, EdgeIdle s.edge → s.busy = false → step s = .next s.sampled) ∧
  (∀ s : State, EdgeIdle s.edge → s.busy = true → step s = continueOp s.sampled) ∧
  ∀ (s : State) (e : Edge) (word : ReqPorts), e.req = false →
    step (s.withEdge e) = step (s.withEdge { e with word := word })

/-- R230: reset, whatever else the inputs show and whatever PHASE is. -/
def Obligations.ResetStepSetsRegisters : Prop :=
  ∀ s : State, s.edge.rst = true →
    ∃ t, step s = .next t ∧
      t = { s.sampled with
            att := false, tmo := 1000, phase := .idle, rxcnt := 0, lastraw := Frame.zero,
            fout := Frame.zero, bout := 0, vok := false, err := .ok,
            txbuf := t.txbuf, rxbuf := t.rxbuf, t0 := t.t0, t1 := t.t1, wshort := t.wshort,
            fresh := t.fresh }

/-- R27: the registers of the state after reset that the spec gives a value. -/
def Obligations.ResetStateValues : Prop :=
  State.reset.att = false ∧ State.reset.tmo = 1000 ∧ State.reset.lastraw = Frame.zero ∧
  State.reset.phase = .idle ∧ State.reset.rxcnt = 0 ∧ State.reset.err = .ok ∧
  State.reset.vok = false ∧ State.reset.bout = 0x00 ∧ State.reset.fout = Frame.zero ∧
  State.reset.par.wT = 32 ∧ State.reset.par.settle = 10

/-- The invariants of R28 hold after reset.  For T0 and T1 this uses the zeros that the model chose
(log 5). -/
def Obligations.ResetMeetsInvariant : Prop := Inv State.reset

/-- Every step from a state that meets the invariants of R28, at any edge, keeps them. -/
def Obligations.EveryStepKeepsInvariant : Prop :=
  ∀ s t : State, Inv s → step s = .next t → Inv t

/-- R41: no state that meets the invariants forms a frame index outside 0 to 8.  The fault for such an
index is the model's (log 16). -/
def Obligations.SoundStatesNeverFault : Prop :=
  ∀ (s : State) (r : Fault), Inv s → step s ≠ .fault r

/-- Where the host and the transport keep their contract, every step has a next state. -/
def Obligations.InContractStepsAnswer : Prop :=
  ∀ s : State, Inv s → EdgeInContract s → ∃ t, step s = .next t

/-! ## The single-step operations (spec/40_codec_ops.md, spec/42_config_ops.md) -/

/-- R100, R101, R103, R104, R109: BUILD, SEAL, CHECKSUM and VERIFY complete in both modes; nothing but
the result and ERR changes. -/
def Obligations.CodecOperationsComplete : Prop :=
  ∀ s : State, s.busy = false →
    (∀ (c : Byte) (v : Val),
      exec (.build c v) s = .next { s with fout := build c v, err := .ok }) ∧
    (∀ f : Frame, exec (.sealFrame f) s = .next { s with fout := { f with b8 := csum f }, err := .ok }) ∧
    (∀ f : Frame, exec (.checksum f) s = .next { s with bout := csum f, err := .ok }) ∧
    (∀ f : Frame, exec (.verify f) s = .next { s with vok := csum f == f.b8, err := .ok })

/-- R150 to R153: ATTACH, SETTMO and RDLAST complete in both modes; nothing but their register and ERR
changes; a W_T-bit operand of SETTMO arrives in TMO unchanged.  That a wider one, which
no port can show, would be cut to W_T bits is the model's choice (log 15). -/
def Obligations.ConfigOperationsComplete : Prop :=
  ∀ s : State, s.busy = false →
    exec .attach s = .next { s with att := true, err := .ok } ∧
    (∀ tin : Nat, exec (.setTmo tin) s = .next { s with tmo := tin % 2 ^ s.par.wT, err := .ok }) ∧
    (∀ tin : Nat, tin < 2 ^ s.par.wT →
      exec (.setTmo tin) s = .next { s with tmo := tin, err := .ok }) ∧
    exec .rdLast s = .next { s with fout := s.lastraw, err := .ok }

/-! ## SEND (spec/41_transport_ops.md) -/

/-- R122: the start step of SEND, Ready, full write. -/
def Obligations.SendFullWrite : Prop :=
  ∀ (c : Byte) (v : Val) (s : State), s.busy = false → s.att = true → s.txCount = 9 →
    exec (.send c v) s = .next
      { s with
        txbuf := build c v
        txlog := s.txlog ++ (build c v).toList
        drained := false
        out := { s.out with txWrite := some (build c v) }
        wshort := false
        phase := .txFlush }

/-- R123: the start step of SEND, Ready, short write, under either policy. -/
def Obligations.SendShortWrite : Prop :=
  ∀ (c : Byte) (v : Val) (s : State), s.busy = false → s.att = true → s.txCount.toNat < 9 →
    ∃ t, exec (.send c v) s = .next t ∧ KeepsReceiveSide s t ∧
      t.par = s.par ∧ t.now = s.now ∧ t.inputs = s.inputs ∧ t.txCount = s.txCount ∧
      t.out = { s.out with txWrite := some (build c v) } ∧
      t.txlog = s.txlog ++ (build c v).toList.take s.txCount.toNat ∧
      t.drained = (if s.txCount = 0 then s.drained else false) ∧
      (s.par.shortWrite = .abort → t.phase = .idle ∧ t.err = .transportE) ∧
      (s.par.shortWrite = .complete →
        t.phase = .txFlush ∧ t.wshort = true ∧ t.err = s.err ∧ t.txbuf = build c v ∧ t.t1 = s.t1)

/-- R121: SEND in mode Uninitialized ends at once and changes nothing but PHASE and ERR. -/
def Obligations.SendRejectedUninitialized : Prop :=
  ∀ (c : Byte) (v : Val) (s : State), s.busy = false → s.att = false →
    exec (.send c v) s = .next { s with phase := .idle, err := .invalidE } ∧
    Phase.idle.busy = false

/-- A write count above 9 is outside the transport's contract: the step is refused (R44, U7;
log 12). -/
def Obligations.WriteCountAboveNineRefused : Prop :=
  ∀ (c : Byte) (v : Val) (s : State), s.busy = false → s.att = true → 9 < s.txCount.toNat →
    exec (.send c v) s = .refused .txCountAboveNine

/-- R160 to R167: each named command frame is emitted as SEND of its code does, in every state; with a
full write it completes with `FF 01 c v[15:8] v[7:0] 00 00 00 k` at the tail of TXLOG.  That the
meaning of a row is that of its SEND is read from R160 (log 2). -/
def Obligations.NamedCommandsEmitTheirFrames : Prop :=
  ∀ (v : Val) (s : State) (i : Instr) (c : Byte),
    (i, c) ∈ ([(.cAbc v, 0x79), (.cRead v, 0x86), (.cZero v, 0x87), (.cSpan v, 0x88),
      (.cRange v, 0x99), (.cLock v, 0x9F), (.cVersion v, 0xA0)] : List (Instr × Byte)) →
    exec i s = exec (.send c v) s ∧
    (s.busy = false → s.att = true → s.txCount = 9 →
      exec i s = .next
        { s with
          txbuf := build c v
          txlog := s.txlog ++ [0xFF, 0x01, c, valHi v, valLo v, 0x00, 0x00, 0x00, (build c v).b8]
          drained := false
          out := { s.out with txWrite := some (build c v) }
          wshort := false
          phase := .txFlush })

/-- R124: the TX_FLUSH step. -/
def Obligations.FlushStepWaitsForDrain : Prop :=
  ∀ s : State, EdgeIdle s.edge → s.phase = .txFlush →
    (s.sampled.drained = true →
      step s = .next { s.sampled with t1 := s.sampled.now, phase := .txSettle }) ∧
    (s.sampled.drained = false → step s = .next s.sampled)

/-- R125: the TX_SETTLE step. -/
def Obligations.SettleStepEndsSend : Prop :=
  ∀ s : State, EdgeIdle s.edge → s.phase = .txSettle →
    (s.par.settle ≤ s.sampled.elapsedT1 →
      ∃ t, step s = .next t ∧
        t = { s.sampled with
              phase := .idle
              err := (if s.wshort then .transportE else .ok)
              txbuf := t.txbuf, t1 := t.t1, wshort := t.wshort, fresh := t.fresh }) ∧
    (s.sampled.elapsedT1 < s.par.settle → step s = .next s.sampled)

/-! ## RECEIVE (spec/41_transport_ops.md) -/

/-- R127: RECEIVE in mode Uninitialized ends at once; FOUT is unspecified afterwards. -/
def Obligations.ReceiveRejectedUninitialized : Prop :=
  ∀ s : State, s.busy = false → s.att = false →
    ∃ t, exec .receive s = .next t ∧ t.busy = false ∧
      t = { s with phase := .idle, err := .invalidE, fout := t.fout, fresh := t.fresh }

/-- R128: RECEIVE in mode Ready latches T0 and seeks the prefix; RXBUF is not cleared and RXQ not
purged. -/
def Obligations.ReceiveStarts : Prop :=
  ∀ s : State, s.busy = false → s.att = true →
    exec .receive s = .next { s with t0 := s.now, rxcnt := 0, phase := .seekingPrefix }

/-- R129: the poll step at which the deadline is reached; no byte is read, even if one is
available. -/
def Obligations.PollAtDeadlineTimesOut : Prop :=
  ∀ s : State, EdgeIdle s.edge → (s.phase = .seekingPrefix ∨ s.phase = .collecting) →
    s.tmo ≤ s.sampled.elapsedT0 →
    ∃ t, step s = .next t ∧ t.busy = false ∧
      t = { s.sampled with
            phase := .timeout, err := .timeoutE, fout := t.fout, rxbuf := t.rxbuf, t0 := t.t0,
            fresh := t.fresh }

/-- R130: the poll step that reads a byte while seeking. -/
def Obligations.PollSeekingReadsOneByte : Prop :=
  ∀ (s : State) (b : Byte) (q : List Byte), EdgeIdle s.edge → s.phase = .seekingPrefix →
    s.sampled.elapsedT0 < s.tmo → s.sampled.rxq = b :: q →
    (b = 0xFF → step s = .next
      { s.sampled with
        rxq := q
        out := { s.sampled.out with rxRead := true }
        rxbuf := { s.rxbuf with b0 := b }
        rxcnt := 1
        phase := .collecting }) ∧
    (b ≠ 0xFF → step s = .next
      { s.sampled with rxq := q, out := { s.sampled.out with rxRead := true } })

/-- R131: the poll step that reads a byte while collecting; the ninth byte completes the frame, and the
snapshot is taken for a failing frame too. -/
def Obligations.PollCollectingStoresOneByte : Prop :=
  ∀ (s : State) (b : Byte) (q : List Byte), EdgeIdle s.edge → s.phase = .collecting →
    1 ≤ s.rxcnt.toNat → s.rxcnt.toNat ≤ 8 →
    s.sampled.elapsedT0 < s.tmo → s.sampled.rxq = b :: q →
    (s.rxcnt.toNat < 8 → ∃ f, s.rxbuf.set? b s.rxcnt.toNat = some f ∧
      step s = .next
        { s.sampled with
          rxq := q, out := { s.sampled.out with rxRead := true },
          rxbuf := f, rxcnt := s.rxcnt + 1 }) ∧
    (s.rxcnt = 8 → ∃ t f, step s = .next t ∧ f = { s.rxbuf with b8 := b } ∧
      (csum f = b → t =
        { s.sampled with
          rxq := q, out := { s.sampled.out with rxRead := true },
          rxcnt := 9, lastraw := f, fout := f, phase := .crcOk, err := .ok,
          rxbuf := t.rxbuf, t0 := t.t0, fresh := t.fresh }) ∧
      (csum f ≠ b → t =
        { s.sampled with
          rxq := q, out := { s.sampled.out with rxRead := true },
          rxcnt := 9, lastraw := f, fout := t.fout, phase := .crcFail, err := .crcE,
          rxbuf := t.rxbuf, t0 := t.t0, fresh := t.fresh }))

/-- R132: the poll step that finds no byte yields and changes no register. -/
def Obligations.PollWithoutByteYields : Prop :=
  ∀ s : State, EdgeIdle s.edge → (s.phase = .seekingPrefix ∨ s.phase = .collecting) →
    s.sampled.elapsedT0 < s.tmo → s.sampled.rxq = [] →
    step s = .next { s.sampled with out := { s.sampled.out with yield := true } }

/-- R134 item 1: Timeout is reported at or after the deadline, never earlier. -/
def Obligations.TimeoutNeverEarly : Prop :=
  ∀ s t : State, s.receiving = true → step s = .next t → t.phase = .timeout →
    s.tmo ≤ elapsed s.par.wT t.now s.t0 ∧ t.err = .timeoutE ∧ t.rxcnt = s.rxcnt ∧
      t.lastraw = s.lastraw

/-- R49: elapsed time by modular subtraction is the true elapsed time below 2^W_T units. -/
def Obligations.ElapsedIsTrueTime : Prop :=
  ∀ (w : Nat) (t d : Nat), t < 2 ^ w → d < 2 ^ w → elapsed w (truncTime w (t + d)) t = d

/-! ## Rules of the whole machine -/

/-- R13: LASTRAW is written only by reset and by the step of RECEIVE that stores the ninth byte. -/
def Obligations.SnapshotOnlyByCompletion : Prop :=
  ∀ s t : State, step s = .next t → t.lastraw ≠ s.lastraw →
    (s.edge.rst = true ∧ t.lastraw = Frame.zero) ∨
    (s.edge.rst = false ∧ s.phase = .collecting ∧ s.rxcnt = 8 ∧
      (t.phase = .crcOk ∨ t.phase = .crcFail) ∧
      ∃ b, s.sampled.rxq = b :: t.rxq ∧ t.lastraw = { s.rxbuf with b8 := b })

/-- R17, R18, R21: ATT, TMO, VOK and BOUT are written only by reset and by the one operation that the
rules name for each. -/
def Obligations.ControlRegistersHaveOneWriter : Prop :=
  ∀ s t : State, step s = .next t →
    (t.att ≠ s.att → (s.edge.rst = true ∧ t.att = false) ∨ (Requested s .attach ∧ t.att = true)) ∧
    (t.tmo ≠ s.tmo → (s.edge.rst = true ∧ t.tmo = 1000) ∨
      ∃ tin, Requested s (.setTmo tin) ∧ t.tmo = tin) ∧
    (t.vok ≠ s.vok → (s.edge.rst = true ∧ t.vok = false) ∨
      ∃ f, Requested s (.verify f) ∧ t.vok = verify f) ∧
    (t.bout ≠ s.bout → (s.edge.rst = true ∧ t.bout = 0) ∨
      ∃ f, Requested s (.checksum f) ∧ t.bout = csum f)

/-- R43, R44, R71: what a step appends to TXLOG is a leading part of one command frame, offered in that
step, by an operation started with ATT = 1 and BUSY = 0. -/
def Obligations.TxlogGrowsByCommandFrames : Prop :=
  ∀ s t : State, step s = .next t →
    ∃ (c : Byte) (v : Val) (n : Nat), n ≤ 9 ∧ t.txlog = s.txlog ++ (build c v).toList.take n ∧
      (t.txlog ≠ s.txlog →
        s.att = true ∧ s.busy = false ∧ s.edge.rst = false ∧ s.edge.req = true ∧
          t.out.txWrite = some (build c v))

/-- R47, R53: a step removes at most the oldest byte of RXQ, and only a poll step of RECEIVE before the
deadline removes one. -/
def Obligations.RxqLosesAtMostItsHead : Prop :=
  ∀ s t : State, step s = .next t →
    t.rxq = s.sampled.rxq ∨
    (s.receiving = true ∧ EdgeIdle s.edge ∧ s.sampled.elapsedT0 < s.tmo ∧ t.out.rxRead = true ∧
      ∃ b, s.sampled.rxq = b :: t.rxq)

/-- R15: RXCNT is set to 0 by the start of RECEIVE and by reset, incremented by each stored byte,
written by nothing else, and never wraps. -/
def Obligations.RxcntCountsStoredBytes : Prop :=
  ∀ s t : State, Inv s → step s = .next t →
    t.rxcnt = s.rxcnt ∨
    (t.rxcnt = 0 ∧ (s.edge.rst = true ∨ (Requested s .receive ∧ t.phase = .seekingPrefix))) ∨
    (s.receiving = true ∧ t.out.rxRead = true ∧ t.rxcnt.toNat = s.rxcnt.toNat + 1 ∧
      t.rxcnt.toNat ≤ 9)

/-- R16: PHASE moves only along the transitions of the table, each at its event and with its RXCNT.  A
named command is requested as its SEND (log 2). -/
def Obligations.PhaseFollowsTheTable : Prop :=
  ∀ s t : State, step s = .next t → t.phase ≠ s.phase →
    (s.edge.rst = true ∧ t.phase = .idle ∧ t.rxcnt = 0) ∨
    (s.busy = false ∧ s.att = false ∧ (Requested s .receive ∨ ∃ c v, Requested s (.send c v)) ∧
      t.phase = .idle ∧ t.err = .invalidE ∧ t.rxcnt = s.rxcnt) ∨
    (s.busy = false ∧ s.att = true ∧ Requested s .receive ∧ t.phase = .seekingPrefix ∧
      t.rxcnt = 0) ∨
    (s.busy = false ∧ s.att = true ∧ (∃ c v, Requested s (.send c v)) ∧
      (s.edge.txCount = 9 ∨ (s.edge.txCount.toNat < 9 ∧ s.par.shortWrite = .complete)) ∧
      t.phase = .txFlush ∧ t.rxcnt = s.rxcnt) ∨
    (s.busy = false ∧ s.att = true ∧ (∃ c v, Requested s (.send c v)) ∧
      s.edge.txCount.toNat < 9 ∧ s.par.shortWrite = .abort ∧
      t.phase = .idle ∧ t.err = .transportE ∧ t.rxcnt = s.rxcnt) ∨
    (EdgeIdle s.edge ∧ s.receiving = true ∧ s.tmo ≤ s.sampled.elapsedT0 ∧
      t.phase = .timeout ∧ t.rxcnt = s.rxcnt) ∨
    (EdgeIdle s.edge ∧ s.phase = .seekingPrefix ∧ s.sampled.elapsedT0 < s.tmo ∧
      (∃ q, s.sampled.rxq = 0xFF :: q) ∧ t.phase = .collecting ∧ t.rxcnt = 1) ∨
    (EdgeIdle s.edge ∧ s.phase = .collecting ∧ s.rxcnt = 8 ∧ s.sampled.elapsedT0 < s.tmo ∧
      s.sampled.rxq ≠ [] ∧ (t.phase = .crcOk ∨ t.phase = .crcFail) ∧ t.rxcnt = 9) ∨
    (EdgeIdle s.edge ∧ s.phase = .txFlush ∧ s.sampled.drained = true ∧
      t.phase = .txSettle ∧ t.rxcnt = s.rxcnt) ∨
    (EdgeIdle s.edge ∧ s.phase = .txSettle ∧ s.par.settle ≤ s.sampled.elapsedT1 ∧
      t.phase = .idle ∧ t.rxcnt = s.rxcnt)

/-- R120: no step of SEND, or of a named command, writes FOUT, BOUT, VOK, LASTRAW, RXBUF, RXCNT, T0,
TMO or ATT, or removes anything from RXQ; ERR is SEND's result and is written.  That the meaning of a
named command is that of its SEND is read from R160 (log 2). -/
def Obligations.SendKeepsReceiveSide : Prop :=
  (∀ (v : Val) (s t : State) (i : Instr),
    ((∃ c, i = .send c v) ∨ i ∈ [.cAbc v, .cRead v, .cZero v, .cSpan v, .cRange v, .cLock v,
      .cVersion v]) → exec i s = .next t → KeepsReceiveSide s t) ∧
  ∀ s t : State, s.sending = true → s.edge.rst = false → step s = .next t →
    KeepsReceiveSide s.sampled t ∧ t.txlog = s.txlog

/-- R126: no step of RECEIVE writes TXBUF, T1, WSHORT, TMO, ATT, VOK or BOUT, or to the transport. -/
def Obligations.ReceiveKeepsSendSide : Prop :=
  (∀ s t : State, exec .receive s = .next t → KeepsSendSide s t ∧ t.rxq = s.rxq ∧
    t.lastraw = s.lastraw ∧ t.rxbuf = s.rxbuf) ∧
  ∀ s t : State, s.receiving = true → s.edge.rst = false → step s = .next t →
    KeepsSendSide s.sampled t

/-- U6, R12, R19: registers without a defined value influence nothing: two states that agree on
everything else step alike, to states that agree again.  That both then show the same FOUT after a
failed RECEIVE is the model's choice: its free value is a function of the counter `fresh` alone (log 3),
and the counter is one of the things they agree on. -/
def Obligations.UndefinedRegistersUnobservable : Prop :=
  ∀ s t : State, SameDefined s t →
    (∀ s', step s = .next s' → ∃ t', step t = .next t' ∧ SameDefined s' t') ∧
    (∀ r, step s = .refused r → step t = .refused r) ∧
    (∀ r, step s = .fault r → step t = .fault r)

/-! ## Whole operations -/

/-- R130, R131, R135: polled without reset or request and without reaching the deadline, RECEIVE
discards the bytes before the first 0xFF, assembles that byte and the next eight, and leaves the rest
of RXQ for the next RECEIVE; the checksum decides the ending. -/
def Obligations.ReceiveDeliversTheFrame : Prop :=
  ∀ (s : State) (es more : List Edge) (junk body rest : List Byte),
    s.phase = .seekingPrefix → s.t0 < 2 ^ s.par.wT → s.now < 2 ^ s.par.wT → s.tmo < 2 ^ s.par.wT →
    s.inputs = es ++ more → (∀ e ∈ es, EdgeIdle e) →
    s.elapsedT0 + totalAdvance es < s.tmo →
    (∀ b ∈ junk, b ≠ 0xFF) → body.length = 8 → es.length = junk.length + 9 →
    s.rxq = junk ++ 0xFF :: (body ++ rest) →
    ∃ t, core.run es.length s = .next t ∧
      t.lastraw.toList = 0xFF :: body ∧ t.rxcnt = 9 ∧ t.rxq = rest ++ arrivals es ∧
      t.inputs = more ∧ t.txlog = s.txlog ∧ t.tmo = s.tmo ∧ t.att = s.att ∧
      (verify t.lastraw = true → t.phase = .crcOk ∧ t.err = .ok ∧ t.fout = t.lastraw) ∧
      (verify t.lastraw = false → t.phase = .crcFail ∧ t.err = .crcE)

/-- R139, R201: under polls without reset or request over which time passes the deadline, every RECEIVE
ends, whatever bytes arrive. -/
def Obligations.ReceiveEndsByItsDeadline : Prop :=
  ∀ (s : State) (es more : List Edge),
    Inv s → s.receiving = true → s.inputs = es ++ more → es ≠ [] → (∀ e ∈ es, EdgeIdle e) →
    s.tmo ≤ s.elapsedT0 + totalAdvance es → s.elapsedT0 + totalAdvance es < 2 ^ s.par.wT →
    ∃ (k : Nat) (t : State), k ≤ es.length ∧ core.run k s = .next t ∧
      (t.phase = .crcOk ∨ t.phase = .crcFail ∨ t.phase = .timeout) ∧ t.txlog = s.txlog

/-- R124, R125, R139: once the transport reports the output drained and SETTLE time units pass, SEND
ends, with the result its write decided. -/
def Obligations.SendEndsAfterDrainAndSettle : Prop :=
  ∀ (s : State) (before after more : List Edge) (d : Edge),
    Inv s → s.phase = .txFlush → s.inputs = before ++ d :: (after ++ more) →
    (∀ e ∈ before, EdgeIdle e) → EdgeIdle d → (∀ e ∈ after, EdgeIdle e) →
    d.drained = some true → after ≠ [] → s.par.settle ≤ totalAdvance after →
    totalAdvance before + d.advance + totalAdvance after < 2 ^ s.par.wT →
    ∃ (k : Nat) (t : State), k ≤ before.length + 1 + after.length ∧ core.run k s = .next t ∧
      t.phase = .idle ∧ t.err = (if s.wshort then .transportE else .ok) ∧
      t.txlog = s.txlog ∧ t.fout = s.fout ∧ t.lastraw = s.lastraw ∧ t.rxcnt = s.rxcnt

/-- R124, R246: a transport that never reports the output drained holds SEND in TX_FLUSH. -/
def Obligations.UndrainedSendKeepsWaiting : Prop :=
  ∀ (s : State) (es more : List Edge), s.phase = .txFlush → s.drained = false →
    s.inputs = es ++ more → (∀ e ∈ es, EdgeIdle e ∧ e.drained ≠ some true) →
    ∃ t, core.run es.length s = .next t ∧ t.phase = .txFlush ∧ t.busy = true ∧
      t.txlog = s.txlog ∧ t.inputs = more

/-- R139: under (a) and (b) every RECEIVE ends; under (a), (b) and (c) every SEND ends, with the result
its write decided; without (c) SEND stays in TX_FLUSH for ever. -/
def Obligations.OperationsEndUnderProgress : Prop :=
  (∀ (s : State) (env : Environment), Inv s → s.receiving = true → ReceiveProgress s env →
    ∃ (k : Nat) (t : State), runIn env k s = .next t ∧
      (t.phase = .crcOk ∨ t.phase = .crcFail ∨ t.phase = .timeout) ∧ t.txlog = s.txlog) ∧
  (∀ (s : State) (env : Environment), Inv s → s.sending = true → SendProgress s env →
    ∃ (k : Nat) (t : State), runIn env k s = .next t ∧
      t.phase = .idle ∧ t.err = (if s.wshort then .transportE else .ok) ∧
      t.txlog = s.txlog ∧ t.fout = s.fout ∧ t.lastraw = s.lastraw ∧ t.rxcnt = s.rxcnt) ∧
  ∀ (s : State) (env : Environment), s.phase = .txFlush → KeepsStepping env →
    ¬ DrainsEventually s.drained env →
    ∀ k : Nat, ∃ t, runIn env k s = .next t ∧ t.phase = .txFlush ∧ t.busy = true

/-! ## Ports and the surrounding software -/

/-- R6, R14, R20, R26: the codes of the phases and of the results are those of the tables and tell them
apart; the outputs show the registers, a frame as 72 bits with byte 0 on top, and never a code that no
rule writes; busy is 1 exactly for the four busy codes, and tx_flush exactly for that of TX_FLUSH.  In
the state after a step rx_read, tx_write with tx_frame, and yield are what that step drove: the model
keeps them so, and has no tx_frame without tx_write (log 14). -/
def Obligations.PortCodesTellStatesApart : Prop :=
  (Phase.idle.code = 0x0 ∧ Phase.seekingPrefix.code = 0x1 ∧ Phase.collecting.code = 0x2 ∧
    Phase.complete.code = 0x3 ∧ Phase.crcOk.code = 0x4 ∧ Phase.crcFail.code = 0x5 ∧
    Phase.timeout.code = 0x6 ∧ Phase.txFlush.code = 0x8 ∧ Phase.txSettle.code = 0x9) ∧
  (ResultCode.ok.code = 0 ∧ ResultCode.timeoutE.code = 1 ∧ ResultCode.crcE.code = 2 ∧
    ResultCode.invalidE.code = 3 ∧ ResultCode.transportE.code = 4) ∧
  (∀ p q : Phase, p.code = q.code → p = q) ∧
  (∀ p : Phase, p.code ≠ 0x7 ∧ p.code < 0xA) ∧
  (∀ e d : ResultCode, e.code = d.code → e = d) ∧
  (∀ f : Frame, f.bits.toNat =
    f.b0.toNat * 2 ^ 64 + f.b1.toNat * 2 ^ 56 + f.b2.toNat * 2 ^ 48 + f.b3.toNat * 2 ^ 40 +
      f.b4.toNat * 2 ^ 32 + f.b5.toNat * 2 ^ 24 + f.b6.toNat * 2 ^ 16 + f.b7.toNat * 2 ^ 8 +
      f.b8.toNat) ∧
  (∀ s : State, s.outPorts.phase = s.phase.code ∧ s.outPorts.err = s.err.code ∧
    s.outPorts.err < 5 ∧ s.outPorts.att = s.att ∧ s.outPorts.rxcnt = s.rxcnt ∧
    s.outPorts.vok = s.vok ∧ s.outPorts.bout = s.bout ∧ s.outPorts.fout = s.fout.bits ∧
    s.outPorts.lastraw = s.lastraw.bits ∧
    (s.outPorts.busy = true ↔
      (s.outPorts.phase = 0x1 ∨ s.outPorts.phase = 0x2 ∨ s.outPorts.phase = 0x8 ∨
        s.outPorts.phase = 0x9)) ∧
    (s.outPorts.txFlush = true ↔ s.outPorts.phase = 0x8)) ∧
  ∀ s t : State, step s = .next t →
    (t.outPorts.rxRead = true → ∃ b, s.sampled.rxq = b :: t.rxq) ∧
    (t.outPorts.rxRead = false → t.rxq = s.sampled.rxq) ∧
    (t.outPorts.txWrite = true ↔ s.att = true ∧ ∃ c v, Requested s (.send c v)) ∧
    (∀ (c : Byte) (v : Val), s.att = true → Requested s (.send c v) →
      t.outPorts.txFrame = some (build c v).bits) ∧
    (t.outPorts.txWrite = false → t.outPorts.txFrame = none) ∧
    (t.outPorts.yield = true ↔
      s.receiving = true ∧ EdgeIdle s.edge ∧ s.sampled.elapsedT0 < s.tmo ∧ s.sampled.rxq = [])

/-- R183: with a window of at most 1 every reading returns its own raw value and leaves the
accumulators alone; with window N the Nth reading returns the integer-truncated average of the batch,
the ones before it their own raw value, and the accumulators restart; a shorter batch stays in the
accumulators.  That the sum and the count have no bound is the model's choice (log 24). -/
def Obligations.FilterAveragesEachBatch : Prop :=
  (∀ (w : Software) (rs : List Nat), w.fwin ≤ 1 → filterReadings rs w = (rs, w)) ∧
  (∀ (w : Software) (rs : List Nat), 2 ≤ w.fwin → w.fsum = 0 → w.fcnt = 0 → rs.length = w.fwin →
    filterReadings rs w = (rs.dropLast ++ [rs.sum / w.fwin], w)) ∧
  ∀ (w : Software) (rs : List Nat), 2 ≤ w.fwin → w.fsum = 0 → w.fcnt = 0 → rs.length < w.fwin →
    filterReadings rs w = (rs, { w with fsum := rs.sum, fcnt := rs.length })

/-- R180, R185 to R190: a call that is an exchange and returns has either returned the error of its
SEND, with no RECEIVE requested and so with RXQ but for arrivals and LASTRAW untouched, or its SEND ended
with OK and it returned what its RECEIVE left in ERR and FOUT; in Uninitialized it returns INVALID_E; a
configuration command returns its exchange's own result.  The pace of the requests is log 25, and that
nothing else is done with the response log 22. -/
def Obligations.ExchangeStopsAtFirstError : Prop :=
  (∀ (p : PseudoOp) (c : Byte) (v : Val) (n : Nat) (w w' : Software) (s t : State)
      (r : DriverResult),
    p.requests = [.send c v, .receive] → s.busy = false → p.call.run n w s = .returned r w' t →
    (t.err ≠ .ok ∧ (r, w') = p.finish (.error t.err) w ∧ t.phase = .idle ∧
      s.rxq <+: t.rxq ∧ t.lastraw = s.lastraw ∧ t.fout = s.fout) ∨
    ∃ (k : Nat) (u : State), k < n ∧
      p.call.run k w s = .pending { op := p, todo := [.receive], started := true } u ∧
      u.busy = false ∧ u.err = .ok ∧ s.rxq <+: u.rxq ∧ u.lastraw = s.lastraw ∧
      t.busy = false ∧ (r, w') = p.finish (exchangeResult u.err t.err t.fout) w) ∧
  (∀ (p : PseudoOp) (c : Byte) (v : Val) (n : Nat) (w : Software) (s : State),
    p.requests = [.send c v, .receive] → s.busy = false → s.att = false →
    ∃ t, p.call.run (n + 2) w s =
        .returned (p.finish (.error .invalidE) w).1 (p.finish (.error .invalidE) w).2 t ∧
      t.rxq = s.rxq ++ s.edge.arrive ∧ t.lastraw = s.lastraw ∧ t.txlog = s.txlog) ∧
  (∀ (range : Int) (n : Nat) (w : Software) (s : State),
    range ≠ 2000 → range ≠ 5000 → s.busy = false →
    (PseudoOp.setRange range).call.run (n + 1) w s = .returned (.failed .invalidE) w s) ∧
  ∀ (p : PseudoOp) (f : Frame) (e : ResultCode) (w : Software),
    (p ∈ [.calibrateZero, .lock, .setRange 2000, .setRange 5000] ∨ (∃ ppm, p = .calibrateSpan ppm) ∨
      (∃ on, p = .enableAutoCalibration on) ∨ ∃ code, p = .unlock code) →
    p.finish (.ok f) w = (.frame f, w) ∧ p.finish (.error e) w = (.failed e, w)

/-- R25, R182, R188: VARIANT starts as Unknown, whatever the parameters; the variant thresholds, the
larger of the two candidate bytes deciding; and a range other than 2000 and 5000 issuing no request.
That a range is an integer of any size is the model's choice (log 23). -/
def Obligations.SoftwareClassifiesAndValidates : Prop :=
  (∀ window sum count : Nat, (Software.initial window sum count).variant = .unknown ∧
    1 ≤ (Software.initial window sum count).fwin) ∧
  (∀ f : Frame,
    (classifyVariant (.ok f) = .d ↔ 0x30 ≤ f.b2.toNat ∨ 0x30 ≤ f.b3.toNat) ∧
    (classifyVariant (.ok f) = .b ↔ f.b2.toNat < 0x14 ∧ f.b3.toNat < 0x14) ∧
    classifyVariant (.ok f) ≠ .unknown) ∧
  (∀ e, classifyVariant (.error e) = .unknown) ∧
  ∀ (range : Int) (r : Except ResultCode Frame) (w : Software),
    (range ≠ 2000 ∧ range ≠ 5000 →
      (PseudoOp.setRange range).requests = [] ∧
      (PseudoOp.setRange range).finish r w = (.failed .invalidE, w)) ∧
    (range = 2000 ∨ range = 5000 →
      (PseudoOp.setRange range).requests = [.send 0x99 (BitVec.ofInt 16 range), .receive])
end

