-- ==== Sys2Proof/Laws/Driver.lean ====
section
/-! SUPPORT. What the surrounding software can do: its moves in a call, and the filter. -/

namespace Sys2Proof.Machine

open Sys2Proof

/-! A call (R180). -/

theorem move_busy {c : DriverCall} {s : State} (h : s.busy = true) : c.move s = .wait := by
  simp [DriverCall.move, h]

/-- The operation that ended had an error. -/
theorem move_error {c : DriverCall} {s : State} (hb : s.busy = false) (hs : c.started = true)
    (he : s.err ≠ .ok) : c.move s = .report (.error s.err) := by
  simp [DriverCall.move, hb, hs, he]

/-- Nothing went wrong so far, and an operation is left. -/
theorem move_request {c : DriverCall} {s : State} {i : Instr} {rest : List Instr}
    (hb : s.busy = false) (h : c.started = false ∨ s.err = .ok) (ht : c.todo = i :: rest) :
    c.move s = .request i := by
  rcases h with h | h <;> simp [DriverCall.move, hb, h, ht]

/-- Nothing went wrong, and none is left. -/
theorem move_last {c : DriverCall} {s : State}
    (hb : s.busy = false) (h : c.started = false ∨ s.err = .ok) (ht : c.todo = []) :
    c.move s = .report (.ok s.fout) := by
  rcases h with h | h <;> simp [DriverCall.move, hb, h, ht]

/-- Everything a call that returns did first. -/
theorem run_returned_cases {n : Nat} {c : DriverCall} {w w' : Software} {s t : State}
    {r : DriverResult} (h : c.run n w s = .returned r w' t) :
    ∃ m, n = m + 1 ∧
      ((∃ x, c.move s = .report x ∧ t = s ∧ (r, w') = c.op.finish x w) ∨
       (c.move s = .wait ∧ ∃ u, step (s.withHost none) = .next u ∧ c.run m w u = .returned r w' t) ∨
       (∃ i, c.move s = .request i ∧ ∃ u, step (s.withHost (some i)) = .next u ∧
          DriverCall.run m { c with todo := c.todo.tail, started := true } w u =
            .returned r w' t)) := by
  cases n with
  | zero => exact absurd h (by simp [DriverCall.run])
  | succ m =>
    refine ⟨m, rfl, ?_⟩
    unfold DriverCall.run at h
    cases hm : c.move s with
    | report x =>
      simp only [hm, CallOutcome.returned.injEq] at h
      obtain ⟨rfl, rfl, rfl⟩ := h
      exact .inl ⟨x, rfl, rfl, rfl⟩
    | wait =>
      simp only [hm] at h
      split at h
      · exact .inr (.inl ⟨rfl, _, ‹_›, h⟩)
      · exact absurd h (by simp)
      · exact absurd h (by simp)
    | request i =>
      simp only [hm] at h
      split at h
      · exact .inr (.inr ⟨i, rfl, _, ‹_›, h⟩)
      · exact absurd h (by simp)
      · exact absurd h (by simp)

theorem run_wait {c : DriverCall} {w : Software} {s t : State} (n : Nat) (hm : c.move s = .wait)
    (h : step (s.withHost none) = .next t) : c.run (n + 1) w s = c.run n w t := by
  rw [DriverCall.run, hm]
  simp only [h]

theorem run_request {c : DriverCall} {w : Software} {s t : State} {i : Instr} (n : Nat)
    (hm : c.move s = .request i) (h : step (s.withHost (some i)) = .next t) :
    c.run (n + 1) w s =
      DriverCall.run n { c with todo := c.todo.tail, started := true } w t := by
  rw [DriverCall.run, hm]
  simp only [h]

theorem run_report {c : DriverCall} {w : Software} {s : State} {x : Except ResultCode Frame}
    (n : Nat) (hm : c.move s = .report x) :
    c.run (n + 1) w s = .returned (c.op.finish x w).1 (c.op.finish x w).2 s := by
  rw [DriverCall.run, hm]

/-! The filter (R183). -/

theorem filterReading_unfiltered {w : Software} (h : w.fwin ≤ 1) (raw : Nat) :
    filterReading raw w = (raw, w) := by
  simp [filterReading, h]

/-- The call that fills the window. -/
theorem filterReading_full {w : Software} (h : 2 ≤ w.fwin) (hc : w.fwin ≤ w.fcnt + 1) (raw : Nat) :
    filterReading raw w = ((w.fsum + raw) / w.fwin, { w with fsum := 0, fcnt := 0 }) := by
  simp [filterReading, show ¬ w.fwin ≤ 1 by omega, hc]

/-- A call before that. -/
theorem filterReading_filling {w : Software} (hc : w.fcnt + 1 < w.fwin) (raw : Nat) :
    filterReading raw w = (raw, { w with fsum := w.fsum + raw, fcnt := w.fcnt + 1 }) := by
  simp [filterReading, show ¬ w.fwin ≤ 1 by omega, show ¬ w.fwin ≤ w.fcnt + 1 by omega]

end Sys2Proof.Machine
end

