-- ==== Sys2Proof/Laws/Frame.lean ====
section
/-! SUPPORT. Small facts about frames and the checksum: which bytes each function reads, and the frame
as bits. -/

namespace Sys2Proof

/-- `csum` reads bytes 1 to 7 only (R8). -/
theorem csum_congr {f g : Frame} (h1 : f.b1 = g.b1) (h2 : f.b2 = g.b2) (h3 : f.b3 = g.b3)
    (h4 : f.b4 = g.b4) (h5 : f.b5 = g.b5) (h6 : f.b6 = g.b6) (h7 : f.b7 = g.b7) :
    csum f = csum g := by
  simp [csum, sumBytes, h1, h2, h3, h4, h5, h6, h7]

@[simp] theorem csum_set_b0 (f : Frame) (b : Byte) : csum { f with b0 := b } = csum f := rfl

@[simp] theorem csum_set_b8 (f : Frame) (b : Byte) : csum { f with b8 := b } = csum f := rfl

@[simp] theorem verify_set_b0 (f : Frame) (b : Byte) : verify { f with b0 := b } = verify f := rfl

theorem verify_eq_true {f : Frame} : verify f = true ↔ csum f = f.b8 := by
  simp [verify]

theorem verify_eq_false {f : Frame} : verify f = false ↔ csum f ≠ f.b8 := by
  simp [verify]

/-- The checksum as a number. -/
theorem csum_toNat (f : Frame) : (csum f).toNat = (256 - sumBytes f % 256) % 256 := by
  simp only [csum, BitVec.toNat_ofNat]
  omega

/-- `sum(f[1..7])` is at most 7 × 255 (R6). -/
theorem sumBytes_le (f : Frame) : sumBytes f ≤ 1785 := by
  have h (b : Byte) : b.toNat ≤ 255 := by have := b.isLt; omega
  have := h f.b1; have := h f.b2; have := h f.b3; have := h f.b4
  have := h f.b5; have := h f.b6; have := h f.b7
  simp only [sumBytes]
  omega

@[simp] theorem sealFrame_b0 (p : Frame) : (sealFrame p).b0 = p.b0 := rfl
@[simp] theorem sealFrame_b1 (p : Frame) : (sealFrame p).b1 = p.b1 := rfl
@[simp] theorem sealFrame_b2 (p : Frame) : (sealFrame p).b2 = p.b2 := rfl
@[simp] theorem sealFrame_b3 (p : Frame) : (sealFrame p).b3 = p.b3 := rfl
@[simp] theorem sealFrame_b4 (p : Frame) : (sealFrame p).b4 = p.b4 := rfl
@[simp] theorem sealFrame_b5 (p : Frame) : (sealFrame p).b5 = p.b5 := rfl
@[simp] theorem sealFrame_b6 (p : Frame) : (sealFrame p).b6 = p.b6 := rfl
@[simp] theorem sealFrame_b7 (p : Frame) : (sealFrame p).b7 = p.b7 := rfl
@[simp] theorem sealFrame_b8 (p : Frame) : (sealFrame p).b8 = csum p := rfl
@[simp] theorem csum_sealFrame (p : Frame) : csum (sealFrame p) = csum p := rfl

@[simp] theorem build_b0 (c : Byte) (v : Val) : (build c v).b0 = Config.prefixByte := rfl
@[simp] theorem build_b1 (c : Byte) (v : Val) : (build c v).b1 = Config.addrByte := rfl
@[simp] theorem build_b2 (c : Byte) (v : Val) : (build c v).b2 = c := rfl
@[simp] theorem build_b3 (c : Byte) (v : Val) : (build c v).b3 = valHi v := rfl
@[simp] theorem build_b4 (c : Byte) (v : Val) : (build c v).b4 = valLo v := rfl
@[simp] theorem build_b5 (c : Byte) (v : Val) : (build c v).b5 = 0 := rfl
@[simp] theorem build_b6 (c : Byte) (v : Val) : (build c v).b6 = 0 := rfl
@[simp] theorem build_b7 (c : Byte) (v : Val) : (build c v).b7 = 0 := rfl

/-- The two halves of a value put together again (R51 item 1). -/
theorem valHi_append_valLo (v : Val) : valHi v ++ valLo v = v := by
  ext i hi
  simp only [valHi, valLo, BitVec.getElem_append, BitVec.getElem_extractLsb']
  split
  · simp [BitVec.getLsbD_eq_getElem hi]
  · have : 8 + (i - 8) = i := by omega
    simp [this, BitVec.getLsbD_eq_getElem hi]

@[simp] theorem build_val (c : Byte) (v : Val) : (build c v).val = v := valHi_append_valLo v

theorem valHi_append (a b : Byte) : valHi (a ++ b) = a := by
  apply BitVec.eq_of_toNat_eq
  have := a.isLt
  have := b.isLt
  have h : (a ++ b).toNat = a.toNat * 256 + b.toNat := by
    rw [BitVec.toNat_append, ← Nat.shiftLeft_add_eq_or_of_lt b.isLt, Nat.shiftLeft_eq]
  simp only [valHi, BitVec.extractLsb'_toNat, h, Nat.shiftRight_eq_div_pow]
  omega

theorem valLo_append (a b : Byte) : valLo (a ++ b) = b := by
  apply BitVec.eq_of_toNat_eq
  have := a.isLt
  have := b.isLt
  have h : (a ++ b).toNat = a.toNat * 256 + b.toNat := by
    rw [BitVec.toNat_append, ← Nat.shiftLeft_add_eq_or_of_lt b.isLt, Nat.shiftLeft_eq]
  simp only [valLo, BitVec.extractLsb'_toNat, h, Nat.shiftRight_eq_div_pow]
  omega

/-- The bits of a frame as a number (R6). -/
theorem bits_toNat (f : Frame) :
    f.bits.toNat =
      f.b0.toNat * 2 ^ 64 + f.b1.toNat * 2 ^ 56 + f.b2.toNat * 2 ^ 48 + f.b3.toNat * 2 ^ 40 +
        f.b4.toNat * 2 ^ 32 + f.b5.toNat * 2 ^ 24 + f.b6.toNat * 2 ^ 16 + f.b7.toNat * 2 ^ 8 +
        f.b8.toNat := by
  have := f.b0.isLt; have := f.b1.isLt; have := f.b2.isLt; have := f.b3.isLt
  have := f.b4.isLt; have := f.b5.isLt; have := f.b6.isLt; have := f.b7.isLt; have := f.b8.isLt
  simp only [Frame.bits, BitVec.toNat_ofNat]
  omega

/-- No byte of a frame is lost in its bits. -/
theorem ofBits_bits (f : Frame) : Frame.ofBits f.bits = f := by
  have hn := bits_toNat f
  have := f.b0.isLt; have := f.b1.isLt; have := f.b2.isLt; have := f.b3.isLt
  have := f.b4.isLt; have := f.b5.isLt; have := f.b6.isLt; have := f.b7.isLt; have := f.b8.isLt
  have key (k : Nat) (b : Byte) (h : f.bits.toNat / 2 ^ k % 2 ^ 8 = b.toNat) :
      f.bits.extractLsb' k 8 = b := by
    apply BitVec.eq_of_toNat_eq
    rw [BitVec.extractLsb'_toNat, Nat.shiftRight_eq_div_pow, h]
  simp only [Nat.reducePow] at *
  have h0 := key 64 f.b0 (by rw [hn]; simp only [Nat.reducePow]; omega)
  have h1 := key 56 f.b1 (by rw [hn]; simp only [Nat.reducePow]; omega)
  have h2 := key 48 f.b2 (by rw [hn]; simp only [Nat.reducePow]; omega)
  have h3 := key 40 f.b3 (by rw [hn]; simp only [Nat.reducePow]; omega)
  have h4 := key 32 f.b4 (by rw [hn]; simp only [Nat.reducePow]; omega)
  have h5 := key 24 f.b5 (by rw [hn]; simp only [Nat.reducePow]; omega)
  have h6 := key 16 f.b6 (by rw [hn]; simp only [Nat.reducePow]; omega)
  have h7 := key 8 f.b7 (by rw [hn]; simp only [Nat.reducePow]; omega)
  have h8 := key 0 f.b8 (by rw [hn]; simp only [Nat.reducePow]; omega)
  simp only [Frame.ofBits, h0, h1, h2, h3, h4, h5, h6, h7, h8]

/-- No bit of a 72-bit vector is lost in its frame. -/
theorem bits_ofBits (v : BitVec 72) : (Frame.ofBits v).bits = v := by
  apply BitVec.eq_of_toNat_eq
  have := v.isLt
  rw [bits_toNat]
  simp only [Frame.ofBits, BitVec.extractLsb'_toNat, Nat.shiftRight_eq_div_pow]
  omega

/-- Masking the bits of a frame masks each byte (R71, R76). -/
theorem ofBits_and (v m : BitVec 72) :
    Frame.ofBits (v &&& m) =
      ⟨(Frame.ofBits v).b0 &&& (Frame.ofBits m).b0, (Frame.ofBits v).b1 &&& (Frame.ofBits m).b1,
        (Frame.ofBits v).b2 &&& (Frame.ofBits m).b2, (Frame.ofBits v).b3 &&& (Frame.ofBits m).b3,
        (Frame.ofBits v).b4 &&& (Frame.ofBits m).b4, (Frame.ofBits v).b5 &&& (Frame.ofBits m).b5,
        (Frame.ofBits v).b6 &&& (Frame.ofBits m).b6, (Frame.ofBits v).b7 &&& (Frame.ofBits m).b7,
        (Frame.ofBits v).b8 &&& (Frame.ofBits m).b8⟩ := by
  simp [Frame.ofBits, BitVec.extractLsb'_and]

/-- A match of masked bits, byte by byte (R86). -/
theorem bits_and_eq {f : Frame} {m p : BitVec 72} :
    f.bits &&& m = p ↔
      Frame.mk (f.b0 &&& (Frame.ofBits m).b0) (f.b1 &&& (Frame.ofBits m).b1)
        (f.b2 &&& (Frame.ofBits m).b2) (f.b3 &&& (Frame.ofBits m).b3)
        (f.b4 &&& (Frame.ofBits m).b4) (f.b5 &&& (Frame.ofBits m).b5)
        (f.b6 &&& (Frame.ofBits m).b6) (f.b7 &&& (Frame.ofBits m).b7)
        (f.b8 &&& (Frame.ofBits m).b8) = Frame.ofBits p := by
  constructor
  · intro h
    rw [← h, ofBits_and, ofBits_bits]
  · intro h
    rw [← bits_ofBits (f.bits &&& m), ofBits_and, ofBits_bits, h, bits_ofBits]

end Sys2Proof
end

