-- ==== Sys2Proof/Laws/State.lean ====
section
/-! SUPPORT. One lemma per field per named update of the state, so that no proof unfolds a record
update. -/

namespace Sys2Proof.Machine

open Sys2Proof

/-! finishing without error writes ERR only (R100, R150) -/

@[simp] theorem finishOk_par (s : State) : (finishOk s).par = s.par := rfl
@[simp] theorem finishOk_att (s : State) : (finishOk s).att = s.att := rfl
@[simp] theorem finishOk_tmo (s : State) : (finishOk s).tmo = s.tmo := rfl
@[simp] theorem finishOk_phase (s : State) : (finishOk s).phase = s.phase := rfl
@[simp] theorem finishOk_rxcnt (s : State) : (finishOk s).rxcnt = s.rxcnt := rfl
@[simp] theorem finishOk_t0 (s : State) : (finishOk s).t0 = s.t0 := rfl
@[simp] theorem finishOk_t1 (s : State) : (finishOk s).t1 = s.t1 := rfl
@[simp] theorem finishOk_wshort (s : State) : (finishOk s).wshort = s.wshort := rfl
@[simp] theorem finishOk_txbuf (s : State) : (finishOk s).txbuf = s.txbuf := rfl
@[simp] theorem finishOk_rxbuf (s : State) : (finishOk s).rxbuf = s.rxbuf := rfl
@[simp] theorem finishOk_lastraw (s : State) : (finishOk s).lastraw = s.lastraw := rfl
@[simp] theorem finishOk_fout (s : State) : (finishOk s).fout = s.fout := rfl
@[simp] theorem finishOk_bout (s : State) : (finishOk s).bout = s.bout := rfl
@[simp] theorem finishOk_vok (s : State) : (finishOk s).vok = s.vok := rfl
@[simp] theorem finishOk_err (s : State) : (finishOk s).err = .ok := rfl
@[simp] theorem finishOk_rxq (s : State) : (finishOk s).rxq = s.rxq := rfl
@[simp] theorem finishOk_txlog (s : State) : (finishOk s).txlog = s.txlog := rfl
@[simp] theorem finishOk_drained (s : State) : (finishOk s).drained = s.drained := rfl
@[simp] theorem finishOk_now (s : State) : (finishOk s).now = s.now := rfl
@[simp] theorem finishOk_txCount (s : State) : (finishOk s).txCount = s.txCount := rfl
@[simp] theorem finishOk_out (s : State) : (finishOk s).out = s.out := rfl
@[simp] theorem finishOk_inputs (s : State) : (finishOk s).inputs = s.inputs := rfl
@[simp] theorem finishOk_fresh (s : State) : (finishOk s).fresh = s.fresh := rfl
@[simp] theorem finishOk_busy (s : State) : (finishOk s).busy = s.busy := rfl

/-! error entry writes PHASE and ERR only (R208) -/

@[simp] theorem raiseError_par (p : Phase) (e : ResultCode) (s : State) : (raiseError p e s).par = s.par := rfl
@[simp] theorem raiseError_att (p : Phase) (e : ResultCode) (s : State) : (raiseError p e s).att = s.att := rfl
@[simp] theorem raiseError_tmo (p : Phase) (e : ResultCode) (s : State) : (raiseError p e s).tmo = s.tmo := rfl
@[simp] theorem raiseError_phase (p : Phase) (e : ResultCode) (s : State) : (raiseError p e s).phase = p := rfl
@[simp] theorem raiseError_rxcnt (p : Phase) (e : ResultCode) (s : State) : (raiseError p e s).rxcnt = s.rxcnt := rfl
@[simp] theorem raiseError_t0 (p : Phase) (e : ResultCode) (s : State) : (raiseError p e s).t0 = s.t0 := rfl
@[simp] theorem raiseError_t1 (p : Phase) (e : ResultCode) (s : State) : (raiseError p e s).t1 = s.t1 := rfl
@[simp] theorem raiseError_wshort (p : Phase) (e : ResultCode) (s : State) : (raiseError p e s).wshort = s.wshort := rfl
@[simp] theorem raiseError_txbuf (p : Phase) (e : ResultCode) (s : State) : (raiseError p e s).txbuf = s.txbuf := rfl
@[simp] theorem raiseError_rxbuf (p : Phase) (e : ResultCode) (s : State) : (raiseError p e s).rxbuf = s.rxbuf := rfl
@[simp] theorem raiseError_lastraw (p : Phase) (e : ResultCode) (s : State) : (raiseError p e s).lastraw = s.lastraw := rfl
@[simp] theorem raiseError_fout (p : Phase) (e : ResultCode) (s : State) : (raiseError p e s).fout = s.fout := rfl
@[simp] theorem raiseError_bout (p : Phase) (e : ResultCode) (s : State) : (raiseError p e s).bout = s.bout := rfl
@[simp] theorem raiseError_vok (p : Phase) (e : ResultCode) (s : State) : (raiseError p e s).vok = s.vok := rfl
@[simp] theorem raiseError_err (p : Phase) (e : ResultCode) (s : State) : (raiseError p e s).err = e := rfl
@[simp] theorem raiseError_rxq (p : Phase) (e : ResultCode) (s : State) : (raiseError p e s).rxq = s.rxq := rfl
@[simp] theorem raiseError_txlog (p : Phase) (e : ResultCode) (s : State) : (raiseError p e s).txlog = s.txlog := rfl
@[simp] theorem raiseError_drained (p : Phase) (e : ResultCode) (s : State) : (raiseError p e s).drained = s.drained := rfl
@[simp] theorem raiseError_now (p : Phase) (e : ResultCode) (s : State) : (raiseError p e s).now = s.now := rfl
@[simp] theorem raiseError_txCount (p : Phase) (e : ResultCode) (s : State) : (raiseError p e s).txCount = s.txCount := rfl
@[simp] theorem raiseError_out (p : Phase) (e : ResultCode) (s : State) : (raiseError p e s).out = s.out := rfl
@[simp] theorem raiseError_inputs (p : Phase) (e : ResultCode) (s : State) : (raiseError p e s).inputs = s.inputs := rfl
@[simp] theorem raiseError_fresh (p : Phase) (e : ResultCode) (s : State) : (raiseError p e s).fresh = s.fresh := rfl

/-! a drawn FOUT (U5) -/

@[simp] theorem drawFout_par (s : State) : (drawFout s).par = s.par := rfl
@[simp] theorem drawFout_att (s : State) : (drawFout s).att = s.att := rfl
@[simp] theorem drawFout_tmo (s : State) : (drawFout s).tmo = s.tmo := rfl
@[simp] theorem drawFout_phase (s : State) : (drawFout s).phase = s.phase := rfl
@[simp] theorem drawFout_rxcnt (s : State) : (drawFout s).rxcnt = s.rxcnt := rfl
@[simp] theorem drawFout_t0 (s : State) : (drawFout s).t0 = s.t0 := rfl
@[simp] theorem drawFout_t1 (s : State) : (drawFout s).t1 = s.t1 := rfl
@[simp] theorem drawFout_wshort (s : State) : (drawFout s).wshort = s.wshort := rfl
@[simp] theorem drawFout_txbuf (s : State) : (drawFout s).txbuf = s.txbuf := rfl
@[simp] theorem drawFout_rxbuf (s : State) : (drawFout s).rxbuf = s.rxbuf := rfl
@[simp] theorem drawFout_lastraw (s : State) : (drawFout s).lastraw = s.lastraw := rfl
@[simp] theorem drawFout_fout (s : State) : (drawFout s).fout = Config.unspecFout s.fresh := rfl
@[simp] theorem drawFout_bout (s : State) : (drawFout s).bout = s.bout := rfl
@[simp] theorem drawFout_vok (s : State) : (drawFout s).vok = s.vok := rfl
@[simp] theorem drawFout_err (s : State) : (drawFout s).err = s.err := rfl
@[simp] theorem drawFout_rxq (s : State) : (drawFout s).rxq = s.rxq := rfl
@[simp] theorem drawFout_txlog (s : State) : (drawFout s).txlog = s.txlog := rfl
@[simp] theorem drawFout_drained (s : State) : (drawFout s).drained = s.drained := rfl
@[simp] theorem drawFout_now (s : State) : (drawFout s).now = s.now := rfl
@[simp] theorem drawFout_txCount (s : State) : (drawFout s).txCount = s.txCount := rfl
@[simp] theorem drawFout_out (s : State) : (drawFout s).out = s.out := rfl
@[simp] theorem drawFout_inputs (s : State) : (drawFout s).inputs = s.inputs := rfl
@[simp] theorem drawFout_fresh (s : State) : (drawFout s).fresh = s.fresh + 1 := rfl
@[simp] theorem drawFout_busy (s : State) : (drawFout s).busy = s.busy := rfl

/-! the end of SEND's working registers (U6) -/

@[simp] theorem retireSend_par (s : State) : (retireSend s).par = s.par := rfl
@[simp] theorem retireSend_att (s : State) : (retireSend s).att = s.att := rfl
@[simp] theorem retireSend_tmo (s : State) : (retireSend s).tmo = s.tmo := rfl
@[simp] theorem retireSend_phase (s : State) : (retireSend s).phase = s.phase := rfl
@[simp] theorem retireSend_rxcnt (s : State) : (retireSend s).rxcnt = s.rxcnt := rfl
@[simp] theorem retireSend_t0 (s : State) : (retireSend s).t0 = s.t0 := rfl
@[simp] theorem retireSend_t1 (s : State) : (retireSend s).t1 = truncTime s.par.wT (Config.unspecT1 s.fresh) := rfl
@[simp] theorem retireSend_wshort (s : State) : (retireSend s).wshort = Config.unspecWshort s.fresh := rfl
@[simp] theorem retireSend_txbuf (s : State) : (retireSend s).txbuf = Config.unspecTxbuf s.fresh := rfl
@[simp] theorem retireSend_rxbuf (s : State) : (retireSend s).rxbuf = s.rxbuf := rfl
@[simp] theorem retireSend_lastraw (s : State) : (retireSend s).lastraw = s.lastraw := rfl
@[simp] theorem retireSend_fout (s : State) : (retireSend s).fout = s.fout := rfl
@[simp] theorem retireSend_bout (s : State) : (retireSend s).bout = s.bout := rfl
@[simp] theorem retireSend_vok (s : State) : (retireSend s).vok = s.vok := rfl
@[simp] theorem retireSend_err (s : State) : (retireSend s).err = s.err := rfl
@[simp] theorem retireSend_rxq (s : State) : (retireSend s).rxq = s.rxq := rfl
@[simp] theorem retireSend_txlog (s : State) : (retireSend s).txlog = s.txlog := rfl
@[simp] theorem retireSend_drained (s : State) : (retireSend s).drained = s.drained := rfl
@[simp] theorem retireSend_now (s : State) : (retireSend s).now = s.now := rfl
@[simp] theorem retireSend_txCount (s : State) : (retireSend s).txCount = s.txCount := rfl
@[simp] theorem retireSend_out (s : State) : (retireSend s).out = s.out := rfl
@[simp] theorem retireSend_inputs (s : State) : (retireSend s).inputs = s.inputs := rfl
@[simp] theorem retireSend_fresh (s : State) : (retireSend s).fresh = s.fresh + 1 := rfl
@[simp] theorem retireSend_busy (s : State) : (retireSend s).busy = s.busy := rfl

/-! the end of RECEIVE's working registers (U6) -/

@[simp] theorem retireReceive_par (s : State) : (retireReceive s).par = s.par := rfl
@[simp] theorem retireReceive_att (s : State) : (retireReceive s).att = s.att := rfl
@[simp] theorem retireReceive_tmo (s : State) : (retireReceive s).tmo = s.tmo := rfl
@[simp] theorem retireReceive_phase (s : State) : (retireReceive s).phase = s.phase := rfl
@[simp] theorem retireReceive_rxcnt (s : State) : (retireReceive s).rxcnt = s.rxcnt := rfl
@[simp] theorem retireReceive_t0 (s : State) : (retireReceive s).t0 = truncTime s.par.wT (Config.unspecT0 s.fresh) := rfl
@[simp] theorem retireReceive_t1 (s : State) : (retireReceive s).t1 = s.t1 := rfl
@[simp] theorem retireReceive_wshort (s : State) : (retireReceive s).wshort = s.wshort := rfl
@[simp] theorem retireReceive_txbuf (s : State) : (retireReceive s).txbuf = s.txbuf := rfl
@[simp] theorem retireReceive_rxbuf (s : State) : (retireReceive s).rxbuf = Config.unspecRxbuf s.fresh := rfl
@[simp] theorem retireReceive_lastraw (s : State) : (retireReceive s).lastraw = s.lastraw := rfl
@[simp] theorem retireReceive_fout (s : State) : (retireReceive s).fout = s.fout := rfl
@[simp] theorem retireReceive_bout (s : State) : (retireReceive s).bout = s.bout := rfl
@[simp] theorem retireReceive_vok (s : State) : (retireReceive s).vok = s.vok := rfl
@[simp] theorem retireReceive_err (s : State) : (retireReceive s).err = s.err := rfl
@[simp] theorem retireReceive_rxq (s : State) : (retireReceive s).rxq = s.rxq := rfl
@[simp] theorem retireReceive_txlog (s : State) : (retireReceive s).txlog = s.txlog := rfl
@[simp] theorem retireReceive_drained (s : State) : (retireReceive s).drained = s.drained := rfl
@[simp] theorem retireReceive_now (s : State) : (retireReceive s).now = s.now := rfl
@[simp] theorem retireReceive_txCount (s : State) : (retireReceive s).txCount = s.txCount := rfl
@[simp] theorem retireReceive_out (s : State) : (retireReceive s).out = s.out := rfl
@[simp] theorem retireReceive_inputs (s : State) : (retireReceive s).inputs = s.inputs := rfl
@[simp] theorem retireReceive_fresh (s : State) : (retireReceive s).fresh = s.fresh + 1 := rfl
@[simp] theorem retireReceive_busy (s : State) : (retireReceive s).busy = s.busy := rfl

/-! a write touches TXLOG, DRAINED and the strobes only (R44) -/

@[simp] theorem txWrite_par (n : Nat) (s : State) : (txWrite n s).par = s.par := rfl
@[simp] theorem txWrite_att (n : Nat) (s : State) : (txWrite n s).att = s.att := rfl
@[simp] theorem txWrite_tmo (n : Nat) (s : State) : (txWrite n s).tmo = s.tmo := rfl
@[simp] theorem txWrite_phase (n : Nat) (s : State) : (txWrite n s).phase = s.phase := rfl
@[simp] theorem txWrite_rxcnt (n : Nat) (s : State) : (txWrite n s).rxcnt = s.rxcnt := rfl
@[simp] theorem txWrite_t0 (n : Nat) (s : State) : (txWrite n s).t0 = s.t0 := rfl
@[simp] theorem txWrite_t1 (n : Nat) (s : State) : (txWrite n s).t1 = s.t1 := rfl
@[simp] theorem txWrite_wshort (n : Nat) (s : State) : (txWrite n s).wshort = s.wshort := rfl
@[simp] theorem txWrite_txbuf (n : Nat) (s : State) : (txWrite n s).txbuf = s.txbuf := rfl
@[simp] theorem txWrite_rxbuf (n : Nat) (s : State) : (txWrite n s).rxbuf = s.rxbuf := rfl
@[simp] theorem txWrite_lastraw (n : Nat) (s : State) : (txWrite n s).lastraw = s.lastraw := rfl
@[simp] theorem txWrite_fout (n : Nat) (s : State) : (txWrite n s).fout = s.fout := rfl
@[simp] theorem txWrite_bout (n : Nat) (s : State) : (txWrite n s).bout = s.bout := rfl
@[simp] theorem txWrite_vok (n : Nat) (s : State) : (txWrite n s).vok = s.vok := rfl
@[simp] theorem txWrite_err (n : Nat) (s : State) : (txWrite n s).err = s.err := rfl
@[simp] theorem txWrite_rxq (n : Nat) (s : State) : (txWrite n s).rxq = s.rxq := rfl
@[simp] theorem txWrite_txlog (n : Nat) (s : State) : (txWrite n s).txlog = s.txlog ++ acceptedBytes s.txbuf n := rfl
@[simp] theorem txWrite_drained (n : Nat) (s : State) : (txWrite n s).drained = if n = 0 then s.drained else false := rfl
@[simp] theorem txWrite_now (n : Nat) (s : State) : (txWrite n s).now = s.now := rfl
@[simp] theorem txWrite_txCount (n : Nat) (s : State) : (txWrite n s).txCount = s.txCount := rfl
@[simp] theorem txWrite_out (n : Nat) (s : State) : (txWrite n s).out = { s.out with txWrite := some s.txbuf } := rfl
@[simp] theorem txWrite_inputs (n : Nat) (s : State) : (txWrite n s).inputs = s.inputs := rfl
@[simp] theorem txWrite_fresh (n : Nat) (s : State) : (txWrite n s).fresh = s.fresh := rfl
@[simp] theorem txWrite_busy (n : Nat) (s : State) : (txWrite n s).busy = s.busy := rfl

/-! a yield changes no register (R48) -/

@[simp] theorem yieldPoll_par (s : State) : (yieldPoll s).par = s.par := rfl
@[simp] theorem yieldPoll_att (s : State) : (yieldPoll s).att = s.att := rfl
@[simp] theorem yieldPoll_tmo (s : State) : (yieldPoll s).tmo = s.tmo := rfl
@[simp] theorem yieldPoll_phase (s : State) : (yieldPoll s).phase = s.phase := rfl
@[simp] theorem yieldPoll_rxcnt (s : State) : (yieldPoll s).rxcnt = s.rxcnt := rfl
@[simp] theorem yieldPoll_t0 (s : State) : (yieldPoll s).t0 = s.t0 := rfl
@[simp] theorem yieldPoll_t1 (s : State) : (yieldPoll s).t1 = s.t1 := rfl
@[simp] theorem yieldPoll_wshort (s : State) : (yieldPoll s).wshort = s.wshort := rfl
@[simp] theorem yieldPoll_txbuf (s : State) : (yieldPoll s).txbuf = s.txbuf := rfl
@[simp] theorem yieldPoll_rxbuf (s : State) : (yieldPoll s).rxbuf = s.rxbuf := rfl
@[simp] theorem yieldPoll_lastraw (s : State) : (yieldPoll s).lastraw = s.lastraw := rfl
@[simp] theorem yieldPoll_fout (s : State) : (yieldPoll s).fout = s.fout := rfl
@[simp] theorem yieldPoll_bout (s : State) : (yieldPoll s).bout = s.bout := rfl
@[simp] theorem yieldPoll_vok (s : State) : (yieldPoll s).vok = s.vok := rfl
@[simp] theorem yieldPoll_err (s : State) : (yieldPoll s).err = s.err := rfl
@[simp] theorem yieldPoll_rxq (s : State) : (yieldPoll s).rxq = s.rxq := rfl
@[simp] theorem yieldPoll_txlog (s : State) : (yieldPoll s).txlog = s.txlog := rfl
@[simp] theorem yieldPoll_drained (s : State) : (yieldPoll s).drained = s.drained := rfl
@[simp] theorem yieldPoll_now (s : State) : (yieldPoll s).now = s.now := rfl
@[simp] theorem yieldPoll_txCount (s : State) : (yieldPoll s).txCount = s.txCount := rfl
@[simp] theorem yieldPoll_out (s : State) : (yieldPoll s).out = { s.out with yield := true } := rfl
@[simp] theorem yieldPoll_inputs (s : State) : (yieldPoll s).inputs = s.inputs := rfl
@[simp] theorem yieldPoll_fresh (s : State) : (yieldPoll s).fresh = s.fresh := rfl
@[simp] theorem yieldPoll_busy (s : State) : (yieldPoll s).busy = s.busy := rfl

/-! reset (R230) -/

@[simp] theorem resetBlock_par (s : State) : (resetBlock s).par = s.par := rfl
@[simp] theorem resetBlock_att (s : State) : (resetBlock s).att = false := rfl
@[simp] theorem resetBlock_tmo (s : State) : (resetBlock s).tmo = Config.tmoDefault := rfl
@[simp] theorem resetBlock_phase (s : State) : (resetBlock s).phase = .idle := rfl
@[simp] theorem resetBlock_rxcnt (s : State) : (resetBlock s).rxcnt = 0 := rfl
@[simp] theorem resetBlock_t0 (s : State) : (resetBlock s).t0 = truncTime s.par.wT (Config.unspecT0 s.fresh) := rfl
@[simp] theorem resetBlock_t1 (s : State) : (resetBlock s).t1 = truncTime s.par.wT (Config.unspecT1 (s.fresh + 1)) := rfl
@[simp] theorem resetBlock_wshort (s : State) : (resetBlock s).wshort = Config.unspecWshort (s.fresh + 1) := rfl
@[simp] theorem resetBlock_txbuf (s : State) : (resetBlock s).txbuf = Config.unspecTxbuf (s.fresh + 1) := rfl
@[simp] theorem resetBlock_rxbuf (s : State) : (resetBlock s).rxbuf = Config.unspecRxbuf s.fresh := rfl
@[simp] theorem resetBlock_lastraw (s : State) : (resetBlock s).lastraw = Frame.zero := rfl
@[simp] theorem resetBlock_fout (s : State) : (resetBlock s).fout = Frame.zero := rfl
@[simp] theorem resetBlock_bout (s : State) : (resetBlock s).bout = 0 := rfl
@[simp] theorem resetBlock_vok (s : State) : (resetBlock s).vok = false := rfl
@[simp] theorem resetBlock_err (s : State) : (resetBlock s).err = .ok := rfl
@[simp] theorem resetBlock_rxq (s : State) : (resetBlock s).rxq = s.rxq := rfl
@[simp] theorem resetBlock_txlog (s : State) : (resetBlock s).txlog = s.txlog := rfl
@[simp] theorem resetBlock_drained (s : State) : (resetBlock s).drained = s.drained := rfl
@[simp] theorem resetBlock_now (s : State) : (resetBlock s).now = s.now := rfl
@[simp] theorem resetBlock_txCount (s : State) : (resetBlock s).txCount = s.txCount := rfl
@[simp] theorem resetBlock_out (s : State) : (resetBlock s).out = s.out := rfl
@[simp] theorem resetBlock_inputs (s : State) : (resetBlock s).inputs = s.inputs := rfl
@[simp] theorem resetBlock_fresh (s : State) : (resetBlock s).fresh = s.fresh + 1 + 1 := rfl

/-! sampling an edge touches the environment only (R24) -/

@[simp] theorem sampleEdge_par (e : Edge) (s : State) : (s.sampleEdge e).par = s.par := rfl
@[simp] theorem sampleEdge_att (e : Edge) (s : State) : (s.sampleEdge e).att = s.att := rfl
@[simp] theorem sampleEdge_tmo (e : Edge) (s : State) : (s.sampleEdge e).tmo = s.tmo := rfl
@[simp] theorem sampleEdge_phase (e : Edge) (s : State) : (s.sampleEdge e).phase = s.phase := rfl
@[simp] theorem sampleEdge_rxcnt (e : Edge) (s : State) : (s.sampleEdge e).rxcnt = s.rxcnt := rfl
@[simp] theorem sampleEdge_t0 (e : Edge) (s : State) : (s.sampleEdge e).t0 = s.t0 := rfl
@[simp] theorem sampleEdge_t1 (e : Edge) (s : State) : (s.sampleEdge e).t1 = s.t1 := rfl
@[simp] theorem sampleEdge_wshort (e : Edge) (s : State) : (s.sampleEdge e).wshort = s.wshort := rfl
@[simp] theorem sampleEdge_txbuf (e : Edge) (s : State) : (s.sampleEdge e).txbuf = s.txbuf := rfl
@[simp] theorem sampleEdge_rxbuf (e : Edge) (s : State) : (s.sampleEdge e).rxbuf = s.rxbuf := rfl
@[simp] theorem sampleEdge_lastraw (e : Edge) (s : State) : (s.sampleEdge e).lastraw = s.lastraw := rfl
@[simp] theorem sampleEdge_fout (e : Edge) (s : State) : (s.sampleEdge e).fout = s.fout := rfl
@[simp] theorem sampleEdge_bout (e : Edge) (s : State) : (s.sampleEdge e).bout = s.bout := rfl
@[simp] theorem sampleEdge_vok (e : Edge) (s : State) : (s.sampleEdge e).vok = s.vok := rfl
@[simp] theorem sampleEdge_err (e : Edge) (s : State) : (s.sampleEdge e).err = s.err := rfl
@[simp] theorem sampleEdge_rxq (e : Edge) (s : State) : (s.sampleEdge e).rxq = s.rxq ++ e.arrive := rfl
@[simp] theorem sampleEdge_txlog (e : Edge) (s : State) : (s.sampleEdge e).txlog = s.txlog := rfl
@[simp] theorem sampleEdge_drained (e : Edge) (s : State) : (s.sampleEdge e).drained = e.drained.getD s.drained := rfl
@[simp] theorem sampleEdge_now (e : Edge) (s : State) : (s.sampleEdge e).now = truncTime s.par.wT (s.now + e.advance) := rfl
@[simp] theorem sampleEdge_txCount (e : Edge) (s : State) : (s.sampleEdge e).txCount = e.txCount := rfl
@[simp] theorem sampleEdge_out (e : Edge) (s : State) : (s.sampleEdge e).out = Strobes.quiet := rfl
@[simp] theorem sampleEdge_inputs (e : Edge) (s : State) : (s.sampleEdge e).inputs = s.inputs.tail := rfl
@[simp] theorem sampleEdge_fresh (e : Edge) (s : State) : (s.sampleEdge e).fresh = s.fresh := rfl
@[simp] theorem sampleEdge_busy (e : Edge) (s : State) : (s.sampleEdge e).busy = s.busy := rfl

/-! presenting an edge -/

@[simp] theorem withEdge_par (e : Edge) (s : State) : (s.withEdge e).par = s.par := rfl
@[simp] theorem withEdge_att (e : Edge) (s : State) : (s.withEdge e).att = s.att := rfl
@[simp] theorem withEdge_tmo (e : Edge) (s : State) : (s.withEdge e).tmo = s.tmo := rfl
@[simp] theorem withEdge_phase (e : Edge) (s : State) : (s.withEdge e).phase = s.phase := rfl
@[simp] theorem withEdge_rxcnt (e : Edge) (s : State) : (s.withEdge e).rxcnt = s.rxcnt := rfl
@[simp] theorem withEdge_t0 (e : Edge) (s : State) : (s.withEdge e).t0 = s.t0 := rfl
@[simp] theorem withEdge_t1 (e : Edge) (s : State) : (s.withEdge e).t1 = s.t1 := rfl
@[simp] theorem withEdge_wshort (e : Edge) (s : State) : (s.withEdge e).wshort = s.wshort := rfl
@[simp] theorem withEdge_txbuf (e : Edge) (s : State) : (s.withEdge e).txbuf = s.txbuf := rfl
@[simp] theorem withEdge_rxbuf (e : Edge) (s : State) : (s.withEdge e).rxbuf = s.rxbuf := rfl
@[simp] theorem withEdge_lastraw (e : Edge) (s : State) : (s.withEdge e).lastraw = s.lastraw := rfl
@[simp] theorem withEdge_fout (e : Edge) (s : State) : (s.withEdge e).fout = s.fout := rfl
@[simp] theorem withEdge_bout (e : Edge) (s : State) : (s.withEdge e).bout = s.bout := rfl
@[simp] theorem withEdge_vok (e : Edge) (s : State) : (s.withEdge e).vok = s.vok := rfl
@[simp] theorem withEdge_err (e : Edge) (s : State) : (s.withEdge e).err = s.err := rfl
@[simp] theorem withEdge_rxq (e : Edge) (s : State) : (s.withEdge e).rxq = s.rxq := rfl
@[simp] theorem withEdge_txlog (e : Edge) (s : State) : (s.withEdge e).txlog = s.txlog := rfl
@[simp] theorem withEdge_drained (e : Edge) (s : State) : (s.withEdge e).drained = s.drained := rfl
@[simp] theorem withEdge_now (e : Edge) (s : State) : (s.withEdge e).now = s.now := rfl
@[simp] theorem withEdge_txCount (e : Edge) (s : State) : (s.withEdge e).txCount = s.txCount := rfl
@[simp] theorem withEdge_out (e : Edge) (s : State) : (s.withEdge e).out = s.out := rfl
@[simp] theorem withEdge_inputs (e : Edge) (s : State) : (s.withEdge e).inputs = e :: s.inputs := rfl
@[simp] theorem withEdge_fresh (e : Edge) (s : State) : (s.withEdge e).fresh = s.fresh := rfl
@[simp] theorem withEdge_busy (e : Edge) (s : State) : (s.withEdge e).busy = s.busy := rfl

/-! The sampled state, field by field where the block's registers stand. -/

@[simp] theorem sampled_par (s : State) : s.sampled.par = s.par := rfl
@[simp] theorem sampled_att (s : State) : s.sampled.att = s.att := rfl
@[simp] theorem sampled_tmo (s : State) : s.sampled.tmo = s.tmo := rfl
@[simp] theorem sampled_phase (s : State) : s.sampled.phase = s.phase := rfl
@[simp] theorem sampled_rxcnt (s : State) : s.sampled.rxcnt = s.rxcnt := rfl
@[simp] theorem sampled_t0 (s : State) : s.sampled.t0 = s.t0 := rfl
@[simp] theorem sampled_t1 (s : State) : s.sampled.t1 = s.t1 := rfl
@[simp] theorem sampled_wshort (s : State) : s.sampled.wshort = s.wshort := rfl
@[simp] theorem sampled_txbuf (s : State) : s.sampled.txbuf = s.txbuf := rfl
@[simp] theorem sampled_rxbuf (s : State) : s.sampled.rxbuf = s.rxbuf := rfl
@[simp] theorem sampled_lastraw (s : State) : s.sampled.lastraw = s.lastraw := rfl
@[simp] theorem sampled_fout (s : State) : s.sampled.fout = s.fout := rfl
@[simp] theorem sampled_bout (s : State) : s.sampled.bout = s.bout := rfl
@[simp] theorem sampled_vok (s : State) : s.sampled.vok = s.vok := rfl
@[simp] theorem sampled_err (s : State) : s.sampled.err = s.err := rfl
@[simp] theorem sampled_txlog (s : State) : s.sampled.txlog = s.txlog := rfl
@[simp] theorem sampled_fresh (s : State) : s.sampled.fresh = s.fresh := rfl
@[simp] theorem sampled_busy (s : State) : s.sampled.busy = s.busy := rfl
@[simp] theorem sampled_out (s : State) : s.sampled.out = Strobes.quiet := rfl
@[simp] theorem sampled_inputs (s : State) : s.sampled.inputs = s.inputs.tail := rfl

theorem sampled_rxq (s : State) : s.sampled.rxq = s.rxq ++ s.edge.arrive := rfl
theorem sampled_now (s : State) :
    s.sampled.now = truncTime s.par.wT (s.now + s.edge.advance) := rfl
theorem sampled_drained (s : State) : s.sampled.drained = s.edge.drained.getD s.drained := rfl
theorem sampled_txCount (s : State) : s.sampled.txCount = s.edge.txCount := rfl

/-- The next edge of a script that has one. -/
theorem edge_of_cons {s : State} {e : Edge} {es : List Edge} (h : s.inputs = e :: es) :
    s.edge = e := by
  simp [State.edge, h]

/-- With the script at its end the next edge is quiet. -/
theorem edge_of_nil {s : State} (h : s.inputs = []) : s.edge = Edge.quiet s.txCount := by
  simp [State.edge, h]

@[simp] theorem withEdge_edge (e : Edge) (s : State) : (s.withEdge e).edge = e := rfl

end Sys2Proof.Machine
end

