-- ==== Sys2Proof/Laws/Ops.lean ====
section
/-! SUPPORT. For each shared operation, once, everything it can do: the later proofs cite these and do
not unfold the operations. -/

namespace Sys2Proof.Machine

open Sys2Proof

/-! Requests. -/

theorem accept_resting {s : State} (h : s.busy = false) (k : State → Answer) :
    accept s k = k s := by
  simp [accept, h]

theorem accept_busy {s : State} (h : s.busy = true) (k : State → Answer) :
    accept s k = .refused .requestWhileBusy := by
  simp [accept, h]

/-- An accepted request was made with BUSY = 0 (R82). -/
theorem accept_next {s t : State} {k : State → Answer} (h : accept s k = .next t) :
    s.busy = false ∧ k s = .next t := by
  unfold accept at h
  split at h
  · exact absurd h (by simp)
  · exact ⟨by simpa using ‹¬ s.busy = true›, h⟩

theorem accept_not_fault {s : State} {k : State → Answer} {r : Fault}
    (hk : k s ≠ .fault r) : accept s k ≠ .fault r := by
  unfold accept
  split
  · simp
  · exact hk

/-! SEND. -/

/-- Everything the start step of SEND can do when it answers a next state (R121 to R123). -/
theorem sendStart_cases {c : Byte} {v : Val} {s t : State} (h : sendStart c v s = .next t) :
    (s.att = false ∧ t = raiseError .idle .invalidE s) ∨
    (s.att = true ∧ s.txCount.toNat = 9 ∧
      t = { txWrite 9 { s with txbuf := build c v } with wshort := false, phase := .txFlush }) ∨
    (s.att = true ∧ s.txCount.toNat < 9 ∧ s.par.shortWrite = .abort ∧
      t = retireSend (raiseError .idle .transportE
        (txWrite s.txCount.toNat { s with txbuf := build c v }))) ∨
    (s.att = true ∧ s.txCount.toNat < 9 ∧ s.par.shortWrite = .complete ∧
      t = { txWrite s.txCount.toNat { s with txbuf := build c v } with
            wshort := true, phase := .txFlush }) := by
  unfold sendStart at h
  split at h
  · rename_i ha
    unfold afterWrite at h
    split at h
    · rename_i h9
      rw [h9] at h
      exact .inr (.inl ⟨ha, h9, by simpa using h.symm⟩)
    · split at h
      · rename_i hlt
        split at h
        · rename_i hp
          exact .inr (.inr (.inl ⟨ha, hlt, by simpa using hp, by simpa using h.symm⟩))
        · rename_i hp
          exact .inr (.inr (.inr ⟨ha, hlt, by simpa using hp, by simpa using h.symm⟩))
      · simp at h
  · rename_i ha
    exact .inl ⟨by simpa using ha, by simpa using h.symm⟩

theorem sendStart_not_fault (c : Byte) (v : Val) (s : State) (r : Fault) :
    sendStart c v s ≠ .fault r := by
  unfold sendStart afterWrite
  split
  · split
    · simp
    · split
      · split <;> simp
      · simp
  · simp

/-- Within the transport's contract the start step of SEND always answers (R44). -/
theorem sendStart_answers (c : Byte) (v : Val) {s : State} (h : s.txCount.toNat ≤ 9) :
    ∃ t, sendStart c v s = .next t := by
  unfold sendStart afterWrite
  split
  · split
    · exact ⟨_, rfl⟩
    · split
      · split <;> exact ⟨_, rfl⟩
      · omega
  · exact ⟨_, rfl⟩

/-- Everything a flush step can do (R124). -/
theorem flushStep_cases {s t : State} (h : flushStep s = .next t) :
    (s.drained = true ∧ t = { s with t1 := s.now, phase := .txSettle }) ∨
    (s.drained = false ∧ t = s) := by
  unfold flushStep at h
  split at h
  · exact .inl ⟨‹_›, by simpa using h.symm⟩
  · exact .inr ⟨by simpa using ‹¬ s.drained = true›, by simpa using h.symm⟩

/-- Everything a settle step can do (R125). -/
theorem settleStep_cases {s t : State} (h : settleStep s = .next t) :
    (s.settled ∧ t = retireSend (raiseError .idle s.sendResult s)) ∨
    (¬ s.settled ∧ t = s) := by
  unfold settleStep at h
  split at h
  · exact .inl ⟨‹_›, by simpa using h.symm⟩
  · exact .inr ⟨‹¬ s.settled›, by simpa using h.symm⟩

/-! RECEIVE. -/

/-- Everything the start step of RECEIVE can do (R127, R128). -/
theorem receiveStart_cases {s t : State} (h : receiveStart s = .next t) :
    (s.att = false ∧ t = drawFout (raiseError .idle .invalidE s)) ∨
    (s.att = true ∧ t = { s with t0 := s.now, rxcnt := 0, phase := .seekingPrefix }) := by
  unfold receiveStart at h
  split at h
  · exact .inr ⟨‹_›, by simpa using h.symm⟩
  · exact .inl ⟨by simpa using ‹¬ s.att = true›, by simpa using h.symm⟩

/-- What `RxRead` answers (R47). -/
theorem rxRead_cons {s : State} {b : Byte} {q : List Byte} (h : s.rxq = b :: q) :
    rxRead s = some (b, { s with rxq := q, out := { s.out with rxRead := true } }) := by
  simp [rxRead, h]

theorem rxRead_nil {s : State} (h : s.rxq = []) : rxRead s = none := by
  simp [rxRead, h]

/-- Everything a poll step can do, up to the rule for a byte read (R133). -/
theorem pollStep_cases {onByte : Byte → State → Answer} {s t : State}
    (h : pollStep onByte s = .next t) :
    (s.deadlineReached ∧
      t = retireReceive (drawFout (raiseError .timeout .timeoutE s))) ∨
    (¬ s.deadlineReached ∧ s.rxq = [] ∧ t = yieldPoll s) ∨
    (¬ s.deadlineReached ∧ ∃ b q, s.rxq = b :: q ∧
      onByte b { s with rxq := q, out := { s.out with rxRead := true } } = .next t) := by
  unfold pollStep at h
  split at h
  · exact .inl ⟨‹_›, by simpa [timeoutStep] using h.symm⟩
  · have hd : ¬ s.deadlineReached := ‹_›
    cases hq : s.rxq with
    | nil =>
      rw [rxRead_nil hq] at h
      exact .inr (.inl ⟨hd, rfl, by simpa using h.symm⟩)
    | cons b q =>
      rw [rxRead_cons hq] at h
      exact .inr (.inr ⟨hd, b, q, rfl, h⟩)

/-- Everything the rule for a byte read while seeking can do (R130). -/
theorem seekByte_cases {b : Byte} {s t : State} (h : seekByte b s = .next t) :
    (b = Config.prefixByte ∧
      t = { s with rxbuf := { s.rxbuf with b0 := b }, rxcnt := 1, phase := .collecting }) ∨
    (b ≠ Config.prefixByte ∧ t = s) := by
  unfold seekByte at h
  split at h
  · exact .inl ⟨‹_›, by simpa using h.symm⟩
  · exact .inr ⟨‹_›, by simpa using h.symm⟩

/-- A byte can be stored exactly where RXCNT is a frame index (R41). -/
theorem set?_isSome (f : Frame) (b : Byte) {i : Nat} (h : i ≤ 8) : ∃ g, f.set? b i = some g := by
  match i, h with
  | 0, _ => exact ⟨_, rfl⟩
  | 1, _ => exact ⟨_, rfl⟩
  | 2, _ => exact ⟨_, rfl⟩
  | 3, _ => exact ⟨_, rfl⟩
  | 4, _ => exact ⟨_, rfl⟩
  | 5, _ => exact ⟨_, rfl⟩
  | 6, _ => exact ⟨_, rfl⟩
  | 7, _ => exact ⟨_, rfl⟩
  | 8, _ => exact ⟨_, rfl⟩

/-- A byte stored after index 0 leaves byte 0 alone. -/
theorem set?_b0 {f g : Frame} {b : Byte} {i : Nat} (hi : 1 ≤ i) (h : f.set? b i = some g) :
    g.b0 = f.b0 := by
  unfold Frame.set? at h
  split at h <;> first
    | omega
    | (obtain rfl := Option.some.inj h; rfl)
    | exact absurd h (by simp)

/-- Everything the rule for a byte read while collecting can do (R131). -/
theorem collectByte_cases {b : Byte} {s t : State} (h : collectByte b s = .next t) :
    ∃ f, s.rxbuf.set? b s.rxcnt.toNat = some f ∧
      ((s.rxcnt + 1 ≠ 9 ∧ t = { s with rxbuf := f, rxcnt := s.rxcnt + 1 }) ∨
       (s.rxcnt + 1 = 9 ∧ t = completeFrame { s with rxbuf := f, rxcnt := s.rxcnt + 1 })) := by
  unfold collectByte storeRx at h
  cases hf : s.rxbuf.set? b s.rxcnt.toNat with
  | none => simp [hf] at h
  | some f =>
    refine ⟨f, rfl, ?_⟩
    simp only [hf] at h
    split at h
    · exact .inr ⟨‹_›, by simpa using h.symm⟩
    · exact .inl ⟨‹_›, by simpa using h.symm⟩

/-- Everything the completion of a frame can do (R131, R202). -/
theorem completeFrame_cases (s : State) :
    (verify s.rxbuf = true ∧
      completeFrame s = retireReceive
        { s with lastraw := s.rxbuf, fout := s.rxbuf, phase := .crcOk, err := .ok }) ∨
    (verify s.rxbuf = false ∧
      completeFrame s = retireReceive (drawFout
        { s with lastraw := s.rxbuf, phase := .crcFail, err := .crcE })) := by
  unfold completeFrame
  cases hv : verify s.rxbuf with
  | true => exact .inl ⟨rfl, by simp [hv]⟩
  | false => exact .inr ⟨rfl, by simp [hv, raiseError]⟩

/-! The step. -/

/-- Everything the block can do at an edge when it answers a next state (R82, R230). -/
theorem blockStep_cases {e : Edge} {s t : State} (h : blockStep e s = .next t) :
    (e.rst = true ∧ t = resetBlock s) ∨
    (e.rst = false ∧ e.req = true ∧ ∃ i, decodeOpreq s.par.wT e.word = .ok i ∧ exec i s = .next t) ∨
    (e.rst = false ∧ e.req = false ∧ continueOp s = .next t) := by
  unfold blockStep at h
  split at h
  · exact .inl ⟨‹_›, by simpa using h.symm⟩
  · have hr : e.rst = false := by simpa using ‹¬ e.rst = true›
    split at h
    · refine .inr (.inl ⟨hr, ‹_›, ?_⟩)
      unfold requestStep at h
      split at h
      · exact ⟨_, ‹_›, h⟩
      · simp at h
    · exact .inr (.inr ⟨hr, by simpa using ‹¬ e.req = true›, h⟩)

/-! What each arm runs, in terms of `accept`. -/

theorem exec_build (c : Byte) (v : Val) (s : State) :
    exec (.build c v) s = accept s (fun s => .next (finishOk { s with fout := buildCommand c v })) := rfl
theorem exec_checksum (f : Frame) (s : State) :
    exec (.checksum f) s = accept s (fun s => .next (finishOk { s with bout := csum f })) := rfl
theorem exec_verify (f : Frame) (s : State) :
    exec (.verify f) s = accept s (fun s => .next (finishOk { s with vok := vokOf f })) := rfl
theorem exec_sealFrame (f : Frame) (s : State) :
    exec (.sealFrame f) s = accept s (fun s => .next (finishOk { s with fout := Sys2Proof.sealFrame f })) := rfl
theorem exec_send (c : Byte) (v : Val) (s : State) :
    exec (.send c v) s = accept s (sendStart c v) := rfl
theorem exec_receive (s : State) :
    exec .receive s = accept s receiveStart := rfl
theorem exec_attach (s : State) :
    exec .attach s = accept s (fun s => .next (finishOk { s with att := true })) := rfl
theorem exec_setTmo (tin : Nat) (s : State) :
    exec (.setTmo tin) s = accept s (fun s => .next (finishOk { s with tmo := truncTime s.par.wT tin })) := rfl
theorem exec_rdLast (s : State) :
    exec .rdLast s = accept s (fun s => .next (finishOk { s with fout := s.lastraw })) := rfl
theorem exec_cAbc (v : Val) (s : State) :
    exec (.cAbc v) s = accept s (sendStart 0x79 v) := rfl
theorem exec_cRead (v : Val) (s : State) :
    exec (.cRead v) s = accept s (sendStart 0x86 v) := rfl
theorem exec_cZero (v : Val) (s : State) :
    exec (.cZero v) s = accept s (sendStart 0x87 v) := rfl
theorem exec_cSpan (v : Val) (s : State) :
    exec (.cSpan v) s = accept s (sendStart 0x88 v) := rfl
theorem exec_cRange (v : Val) (s : State) :
    exec (.cRange v) s = accept s (sendStart 0x99 v) := rfl
theorem exec_cLock (v : Val) (s : State) :
    exec (.cLock v) s = accept s (sendStart 0x9F v) := rfl
theorem exec_cVersion (v : Val) (s : State) :
    exec (.cVersion v) s = accept s (sendStart 0xA0 v) := rfl

/-- Everything an instruction can do when it answers a next state: the request was made with BUSY = 0,
and the effect is that of a single-step operation, of the start of SEND, or of the start of
RECEIVE. -/
theorem exec_cases {i : Instr} {s t : State} (h : exec i s = .next t) :
    s.busy = false ∧
    ((∃ g, t = { s with fout := g, err := .ok }) ∨
     (∃ b, t = { s with bout := b, err := .ok }) ∨
     (∃ k, t = { s with vok := k, err := .ok }) ∨
     (i = .attach ∧ t = { s with att := true, err := .ok }) ∨
     (∃ tin, i = .setTmo tin ∧ t = { s with tmo := truncTime s.par.wT tin, err := .ok }) ∨
     (∃ c v, sendStart c v s = .next t) ∨
     (i = .receive ∧ receiveStart s = .next t)) := by
  cases i with
  | build c v =>
    rw [exec_build] at h
    obtain ⟨hb, hk⟩ := accept_next h
    exact ⟨hb, .inl ⟨_, by simpa [finishOk] using hk.symm⟩⟩
  | checksum f =>
    rw [exec_checksum] at h
    obtain ⟨hb, hk⟩ := accept_next h
    exact ⟨hb, .inr (.inl ⟨_, by simpa [finishOk] using hk.symm⟩)⟩
  | verify f =>
    rw [exec_verify] at h
    obtain ⟨hb, hk⟩ := accept_next h
    exact ⟨hb, .inr (.inr (.inl ⟨_, by simpa [finishOk] using hk.symm⟩))⟩
  | sealFrame f =>
    rw [exec_sealFrame] at h
    obtain ⟨hb, hk⟩ := accept_next h
    exact ⟨hb, .inl ⟨_, by simpa [finishOk] using hk.symm⟩⟩
  | rdLast =>
    rw [exec_rdLast] at h
    obtain ⟨hb, hk⟩ := accept_next h
    exact ⟨hb, .inl ⟨_, by simpa [finishOk] using hk.symm⟩⟩
  | attach =>
    rw [exec_attach] at h
    obtain ⟨hb, hk⟩ := accept_next h
    exact ⟨hb, .inr (.inr (.inr (.inl ⟨rfl, by simpa [finishOk] using hk.symm⟩)))⟩
  | setTmo tin =>
    rw [exec_setTmo] at h
    obtain ⟨hb, hk⟩ := accept_next h
    exact ⟨hb, .inr (.inr (.inr (.inr (.inl ⟨tin, rfl, by simpa [finishOk] using hk.symm⟩))))⟩
  | receive =>
    rw [exec_receive] at h
    obtain ⟨hb, hk⟩ := accept_next h
    exact ⟨hb, .inr (.inr (.inr (.inr (.inr (.inr ⟨rfl, hk⟩)))))⟩
  | send c v =>
    rw [exec_send] at h
    obtain ⟨hb, hk⟩ := accept_next h
    exact ⟨hb, .inr (.inr (.inr (.inr (.inr (.inl ⟨_, _, hk⟩)))))⟩
  | cAbc v =>
    rw [exec_cAbc] at h
    obtain ⟨hb, hk⟩ := accept_next h
    exact ⟨hb, .inr (.inr (.inr (.inr (.inr (.inl ⟨_, _, hk⟩)))))⟩
  | cRead v =>
    rw [exec_cRead] at h
    obtain ⟨hb, hk⟩ := accept_next h
    exact ⟨hb, .inr (.inr (.inr (.inr (.inr (.inl ⟨_, _, hk⟩)))))⟩
  | cZero v =>
    rw [exec_cZero] at h
    obtain ⟨hb, hk⟩ := accept_next h
    exact ⟨hb, .inr (.inr (.inr (.inr (.inr (.inl ⟨_, _, hk⟩)))))⟩
  | cSpan v =>
    rw [exec_cSpan] at h
    obtain ⟨hb, hk⟩ := accept_next h
    exact ⟨hb, .inr (.inr (.inr (.inr (.inr (.inl ⟨_, _, hk⟩)))))⟩
  | cRange v =>
    rw [exec_cRange] at h
    obtain ⟨hb, hk⟩ := accept_next h
    exact ⟨hb, .inr (.inr (.inr (.inr (.inr (.inl ⟨_, _, hk⟩)))))⟩
  | cLock v =>
    rw [exec_cLock] at h
    obtain ⟨hb, hk⟩ := accept_next h
    exact ⟨hb, .inr (.inr (.inr (.inr (.inr (.inl ⟨_, _, hk⟩)))))⟩
  | cVersion v =>
    rw [exec_cVersion] at h
    obtain ⟨hb, hk⟩ := accept_next h
    exact ⟨hb, .inr (.inr (.inr (.inr (.inr (.inl ⟨_, _, hk⟩)))))⟩

/-! Time. -/

theorem truncTime_lt (w : Nat) (t : Nat) : truncTime w t < 2 ^ w :=
  Nat.mod_lt _ (Nat.two_pow_pos w)

theorem truncTime_of_lt {w : Nat} {t : Nat} (h : t < 2 ^ w) : truncTime w t = t :=
  Nat.mod_eq_of_lt h

end Sys2Proof.Machine
end

