-- ==== Sys2Proof/Laws/PerInstr.lean ====
section
/-! SUPPORT. Facts about every instruction as syntax, one lemma per constructor. -/

namespace Sys2Proof.Laws.ShowsRow

open Sys2Proof

/-- The encoded word of an instruction shows the fixed bits of its row of spec/opcode_table.json: the
`op` pattern, or `bits(f) AND mask = match`. -/
def Statement (i : Instr) : Prop := (rowPattern i).fits (encode i) = true

/-- The command frame with code `c` under the mask of R76. -/
theorem build_masked (c : Byte) (v : Val) (p : BitVec 72)
    (hp : Frame.ofBits p = ⟨0xFF, 0x01, c, 0, 0, 0, 0, 0, 0⟩) :
    (build c v).bits &&& 0xFFFFFF0000FFFFFF00 = p := by
  rw [bits_and_eq, hp]
  have hm : Frame.ofBits 0xFFFFFF0000FFFFFF00 = ⟨0xFF, 0xFF, 0xFF, 0, 0, 0xFF, 0xFF, 0xFF, 0⟩ := by
    decide
  have h255 : ∀ b : Byte, b &&& 0xFF = b := by
    intro b
    simpa using BitVec.and_allOnes (x := b)
  have h0 : ∀ b : Byte, b &&& 0 = 0 := fun b => BitVec.and_zero
  rw [hm]
  simp only [build_b0, build_b1, build_b2, build_b5, build_b6, build_b7, h255, h0,
    Config.prefixByte, Config.addrByte]

theorem build (c : Byte) (v : Val) : Statement (.build c v) := rfl
theorem checksum (f : Frame) : Statement (.checksum f) := rfl
theorem verify (f : Frame) : Statement (.verify f) := rfl
theorem sealFrame (f : Frame) : Statement (.sealFrame f) := rfl
theorem send (c : Byte) (v : Val) : Statement (.send c v) := rfl
theorem receive : Statement .receive := rfl
theorem attach : Statement .attach := rfl
theorem setTmo (t : Nat) : Statement (.setTmo t) := rfl
theorem rdLast : Statement .rdLast := rfl
theorem cAbc (v : Val) : Statement (.cAbc v) :=
  beq_iff_eq.mpr (build_masked 0x79 v _ (by decide))
theorem cRead (v : Val) : Statement (.cRead v) :=
  beq_iff_eq.mpr (build_masked 0x86 v _ (by decide))
theorem cZero (v : Val) : Statement (.cZero v) :=
  beq_iff_eq.mpr (build_masked 0x87 v _ (by decide))
theorem cSpan (v : Val) : Statement (.cSpan v) :=
  beq_iff_eq.mpr (build_masked 0x88 v _ (by decide))
theorem cRange (v : Val) : Statement (.cRange v) :=
  beq_iff_eq.mpr (build_masked 0x99 v _ (by decide))
theorem cLock (v : Val) : Statement (.cLock v) :=
  beq_iff_eq.mpr (build_masked 0x9F v _ (by decide))
theorem cVersion (v : Val) : Statement (.cVersion v) :=
  beq_iff_eq.mpr (build_masked 0xA0 v _ (by decide))

end Sys2Proof.Laws.ShowsRow
end

