-- ==== Sys2Proof/Laws/Run.lean ====
section
/-! SUPPORT. Small facts for statements about several steps: running, the script of edges, elapsed
time, and bytes stored by index. -/

namespace Sys2Proof.Machine

open Sys2Proof

/-! Running. -/

theorem run_zero (s : State) : core.run 0 s = .next s := rfl

theorem run_succ {s t : State} {k : Nat} (h : step s = .next t) :
    core.run (k + 1) s = core.run k t := by
  have hs : core.step s = .next t := h
  simp only [Host.Core.run]
  simp only [hs]

/-- A run goes on from where a shorter run ended. -/
theorem run_add {s t : State} {j : Nat} (k : Nat) (h : core.run j s = .next t) :
    core.run (j + k) s = core.run k t := by
  induction j generalizing s with
  | zero =>
    have hst : s = t := Host.Outcome.next.inj h
    rw [hst, Nat.zero_add]
  | succ j ih =>
    cases hs : step s with
    | next u => rw [Nat.succ_add, run_succ hs]; rw [run_succ hs] at h; exact ih h
    | fault r =>
      have hc : core.step s = .fault r := hs
      simp only [Host.Core.run] at h
      simp [hc] at h
    | refused r =>
      have hc : core.step s = .refused r := hs
      simp only [Host.Core.run] at h
      simp [hc] at h

/-! The script. -/

theorem edge_cons {s : State} {e : Edge} {es : List Edge} (h : s.inputs = e :: es) :
    s.edge = e := by
  simp [State.edge, h]

theorem edge_nil {s : State} (h : s.inputs = []) : s.edge = Edge.quiet s.txCount := by
  simp [State.edge, h]

theorem sampled_inputs_cons {s : State} {e : Edge} {es : List Edge} (h : s.inputs = e :: es) :
    s.sampled.inputs = es := by
  show s.inputs.tail = es
  rw [h]
  rfl

/-- At an edge without reset or request the operation in progress goes on (R82). -/
theorem step_idle {s : State} (h : EdgeIdle s.edge) : step s = continueOp s.sampled := by
  show blockStep s.edge s.sampled = _
  simp [blockStep, h.1, h.2]

theorem totalAdvance_nil : totalAdvance [] = 0 := rfl

theorem totalAdvance_cons (e : Edge) (es : List Edge) :
    totalAdvance (e :: es) = e.advance + totalAdvance es := by
  simp [totalAdvance]

theorem arrivals_nil : arrivals [] = [] := rfl

theorem arrivals_cons (e : Edge) (es : List Edge) :
    arrivals (e :: es) = e.arrive ++ arrivals es := by
  simp [arrivals]

/-! Elapsed time (R49). -/

theorem elapsed_self (w t : Nat) : elapsed w t t = 0 := by
  simp [elapsed]

/-- Time that passes adds up modulo 2^W_T. -/
theorem elapsed_advance (w n a t : Nat) :
    elapsed w (truncTime w (n + a)) t = (elapsed w n t + a) % 2 ^ w := by
  have hW : (0 : Int) < 2 ^ w := by positivity
  have cast (x : Int) : ((x % 2 ^ w).toNat : Int) = x % 2 ^ w :=
    Int.toNat_of_nonneg (Int.emod_nonneg _ hW.ne')
  zify
  simp only [elapsed, truncTime, cast]
  push_cast
  rw [Int.emod_sub_emod, Int.emod_add_emod]
  congr 1
  ring

theorem sampled_elapsedT0 (s : State) :
    s.sampled.elapsedT0 = (s.elapsedT0 + s.edge.advance) % 2 ^ s.par.wT :=
  elapsed_advance _ _ _ _

theorem sampled_elapsedT1 (s : State) :
    s.sampled.elapsedT1 = (s.elapsedT1 + s.edge.advance) % 2 ^ s.par.wT :=
  elapsed_advance _ _ _ _

/-! Environments that go on for ever (R139). -/

theorem first_length (env : Environment) (k : Nat) : (env.first k).length = k := by
  simp [Environment.first]

theorem first_succ (env : Environment) (k : Nat) :
    env.first (k + 1) = env 0 :: (env.after 1).first k := by
  simp only [Environment.first, List.range_succ_eq_map, List.map_cons, List.map_map,
    List.cons.injEq, true_and]
  refine List.map_congr_left fun n _ => ?_
  show env (n + 1) = env (1 + n)
  rw [Nat.add_comm]

theorem after_zero (env : Environment) : env.after 0 = env := by
  funext n
  simp [Environment.after]

theorem after_after (env : Environment) (m n : Nat) : (env.after m).after n = env.after (m + n) := by
  funext k
  simp [Environment.after, Nat.add_assoc]

theorem keepsStepping_after {env : Environment} (h : KeepsStepping env) (m : Nat) :
    KeepsStepping (env.after m) :=
  fun n => h (m + n)

theorem keepsStepping_first {env : Environment} (h : KeepsStepping env) (k : Nat) :
    ∀ e ∈ env.first k, EdgeIdle e := by
  intro e he
  obtain ⟨n, -, rfl⟩ := List.mem_map.1 he
  exact h n

theorem drainedAfter_nil (d : Bool) : drainedAfter d [] = d := rfl

theorem drainedAfter_cons (d : Bool) (e : Edge) (es : List Edge) :
    drainedAfter d (e :: es) = drainedAfter (e.drained.getD d) es := rfl

/-! The block looks at no edge but the present one, so the rest of the script may be replaced. -/

theorem flushStep_inputs {s t : State} (es : List Edge) (h : flushStep s = .next t) :
    flushStep { s with inputs := es } = .next { t with inputs := es } := by
  obtain ⟨hd, rfl⟩ | ⟨hd, rfl⟩ := flushStep_cases h <;> simp [flushStep, hd]

theorem settleStep_inputs {s t : State} (es : List Edge) (h : settleStep s = .next t) :
    settleStep { s with inputs := es } = .next { t with inputs := es } := by
  obtain ⟨hd, rfl⟩ | ⟨hd, rfl⟩ := settleStep_cases h
  · exact if_pos hd
  · exact if_neg hd

theorem seekByte_inputs {b : Byte} {s t : State} (es : List Edge) (h : seekByte b s = .next t) :
    seekByte b { s with inputs := es } = .next { t with inputs := es } := by
  obtain ⟨hd, rfl⟩ | ⟨hd, rfl⟩ := seekByte_cases h
  · exact if_pos hd
  · exact if_neg hd

theorem collectByte_inputs {b : Byte} {s t : State} (es : List Edge)
    (h : collectByte b s = .next t) :
    collectByte b { s with inputs := es } = .next { t with inputs := es } := by
  obtain ⟨f, hf, ⟨hn, rfl⟩ | ⟨hn, rfl⟩⟩ := collectByte_cases h
  · simp only [collectByte, storeRx, hf, hn, if_false]
  · simp only [collectByte, storeRx, hf, hn, if_true, completeFrame]
    split <;> rfl

theorem pollStep_inputs {onByte : Byte → State → Answer} {s t : State} (es : List Edge)
    (hb : ∀ b u v, onByte b u = .next v →
      onByte b { u with inputs := es } = .next { v with inputs := es })
    (h : pollStep onByte s = .next t) :
    pollStep onByte { s with inputs := es } = .next { t with inputs := es } := by
  unfold pollStep at h ⊢
  split at h
  · obtain rfl := Host.Outcome.next.inj h
    exact if_pos ‹_›
  · refine (if_neg ‹_›).trans ?_
    obtain ⟨_, _, _, _, _, _, _, _, _, _, _, _, _, _, _, rxq, _⟩ := s
    cases rxq with
    | nil => obtain rfl := Host.Outcome.next.inj h; rfl
    | cons b q => exact hb _ _ _ h

theorem continueOp_inputs {s t : State} (es : List Edge) (h : continueOp s = .next t) :
    continueOp { s with inputs := es } = .next { t with inputs := es } := by
  obtain ⟨_, _, _, phase, _⟩ := s
  cases phase
  case txFlush => exact flushStep_inputs es h
  case txSettle => exact settleStep_inputs es h
  case seekingPrefix => exact pollStep_inputs es (fun _ _ _ => seekByte_inputs es) h
  case collecting => exact pollStep_inputs es (fun _ _ _ => collectByte_inputs es) h
  all_goals (obtain rfl := Host.Outcome.next.inj h; rfl)

theorem step_inputs {s t : State} {e : Edge} (he : EdgeIdle e)
    (h : step { s with inputs := [e] } = .next t) (es : List Edge) :
    step { s with inputs := e :: es } = .next { t with inputs := es } := by
  rw [step_idle (s := { s with inputs := [e] }) he] at h
  rw [step_idle (s := { s with inputs := e :: es }) he]
  exact continueOp_inputs es h

/-- A run in an environment, by its first step. -/
theorem runIn_succ {env : Environment} {s t : State} (he : EdgeIdle (env 0))
    (h : step { s with inputs := [env 0] } = .next t) (k : Nat) :
    runIn env (k + 1) s = runIn (env.after 1) k t := by
  simp only [runIn]
  rw [first_succ, run_succ (step_inputs he h _)]

/-! Bytes stored by index. -/

theorem toList_set? {f g : Frame} {b : Byte} {i : Nat} (h : f.set? b i = some g) :
    g.toList = f.toList.set i b := by
  unfold Frame.set? at h
  split at h <;> first
    | (obtain rfl := Option.some.inj h; rfl)
    | exact absurd h (by simp)

theorem toList_injective {f g : Frame} (h : f.toList = g.toList) : f = g := by
  cases f
  cases g
  simp only [Frame.toList, List.cons.injEq] at h
  simp [h]

end Sys2Proof.Machine
end

