-- ==== Sys2Proof/Tests/Slice0.lean ====
section
/-! SUPPORT. Tests, each with its source in the spec, and one witness for every hypothesis of the
statements. -/

namespace Sys2Proof.Tests

open Sys2Proof Sys2Proof.Machine

/-! ## Small states -/

/-- The parameters with a fixed policy, so that a test can be evaluated. -/
def par (p : ShortWritePolicy) : Params := { wT := 32, settle := 10, shortWrite := p }

/-- The start state of spec/95_test_vectors.md: reset, then ATTACH. -/
def ready : State := { State.reset with par := par .abort, att := true }

/-- Reset, not attached. -/
def unattached : State := { State.reset with par := par .abort }

/-- The frame of S1 and the same frame with a wrong checksum (S9). -/
def good : Frame := ⟨0xFF, 0x86, 0x01, 0x90, 0x43, 0x00, 0x00, 0x00, 0xA6⟩
def bad : Frame := { good with b8 := 0xA7 }

/-- The read command (R162). -/
def readFrame : Frame := ⟨0xFF, 0x01, 0x86, 0x00, 0x00, 0x00, 0x00, 0x00, 0x79⟩

/-- An edge without reset or request, over which time passes and bytes arrive. -/
def tick (advance : Nat) (arrive : List Byte) : Edge :=
  { Edge.quiet 9 with advance := advance, arrive := arrive }

/-- RECEIVE in progress since `now` = 5000, TMO 1000. -/
def seeking : State := { ready with phase := .seekingPrefix, t0 := 5000, now := 5000 }

/-- The same, with the first `n` bytes of `good` taken. -/
def collecting (n : BitVec 4) : State :=
  { seeking with phase := .collecting, rxcnt := n, rxbuf := { good with b8 := 0 } }

/-- SEND in progress after a full write. -/
def flushing : State := { ready with phase := .txFlush, txbuf := readFrame, drained := false }

/-- SEND in progress, drained at 103 (V-S1). -/
def settling : State := { flushing with phase := .txSettle, drained := true, t1 := 103, now := 103 }

/-- The step answers a next state of which `p` holds. -/
def nextIs (a : Answer) (p : State → Bool) : Bool :=
  match a with
  | .next t => p t
  | .fault _ => false
  | .refused _ => false

/-- The refusal a step answers. -/
def refusal? (a : Answer) : Option Refusal :=
  match a with
  | .next _ => none
  | .fault _ => none
  | .refused r => some r

/-- A request for `i`, presented to `s` in the next step. -/
def asking (s : State) (i : Instr) : State := s.withEdge (requestEdge s.txCount (requestOf i))

/-! ## Well-formedness: the one check, W_T bits of `tin` (R26) -/

theorem test_wf_refuses_wide_tin : (Instr.setTmo (2 ^ 32)).wf 32 = false := by decide
theorem test_wf_accepts_longest_tin : (Instr.setTmo 4294967295).wf 32 = true := by decide

/-! ## Decoding: words written out from R76, R80 and the frames of section 2.8 -/

theorem test_decode_build :
    decode 32 (.opreq { ReqPorts.idle with op := 0x1, cmd := 0x86, val := 0x0079 }) =
      .ok (.build 0x86 0x0079) := by decide
theorem test_decode_checksum :
    decode 32 (.opreq { ReqPorts.idle with op := 0x2, fin := bad }) = .ok (.checksum bad) := by decide
theorem test_decode_verify :
    decode 32 (.opreq { ReqPorts.idle with op := 0x3, fin := good }) = .ok (.verify good) := by decide
theorem test_decode_seal :
    decode 32 (.opreq { ReqPorts.idle with op := 0x4, fin := good }) = .ok (.sealFrame good) := by
  decide
theorem test_decode_send :
    decode 32 (.opreq { ReqPorts.idle with op := 0x5, cmd := 0x88, val := 0x07D0 }) =
      .ok (.send 0x88 0x07D0) := by decide
theorem test_decode_receive : decodeTableWord 8 0x6 = some .receive := by decide
theorem test_decode_attach : decodeTableWord 8 0x7 = some .attach := by decide
theorem test_decode_setTmo :
    decode 32 (.opreq { ReqPorts.idle with op := 0x8, tin := 250 }) = .ok (.setTmo 250) := by decide
theorem test_decode_rdLast : decodeTableWord 8 0x9 = some .rdLast := by decide
theorem test_decode_cAbc :
    decodeTableWord 72 0xFF017900A0000000E6 = some (.cAbc 0x00A0) := by decide
theorem test_decode_cRead :
    decode 32 (.frame9 readFrame) = .ok (.cRead 0) := by decide
theorem test_decode_cZero :
    decodeTableWord 72 0xFF0187000000000078 = some (.cZero 0) := by decide
theorem test_decode_cSpan :
    decode 32 (.frame9 ⟨0xFF, 0x01, 0x88, 0x03, 0xE8, 0, 0, 0, 0x8C⟩) = .ok (.cSpan 1000) := by decide
theorem test_decode_cRange :
    decodeTableWord 72 0xFF019907D00000008F = some (.cRange 2000) := by decide
theorem test_decode_cLock :
    decode 32 (.frame9 ⟨0xFF, 0x01, 0x9F, 0x12, 0x34, 0, 0, 0, 0x1A⟩) = .ok (.cLock 0x1234) := by
  decide
theorem test_decode_cVersion :
    decodeTableWord 72 0xFF01A000000000005F = some (.cVersion 0) := by decide
/-- Log 6: a number of 73 bits is no word of the table, whatever its low 72 bits show. -/
theorem test_decode_wideNumber : decodeTableWord 72 0x1FF01A000000000005F = none := by decide

/-! Words that are no instruction (R83, R71, R77, R86). -/

theorem test_decode_reserved_op :
    decode 32 (.opreq { ReqPorts.idle with op := 0xA }) = .error (.opreq (.reservedOp 0xA)) := by decide
theorem test_decode_response_is_no_command :
    decode 32 (.frame9 good) = .error (.frame9 .notCommandFrame) := by decide
theorem test_decode_bad_checksum :
    decode 32 (.frame9 { readFrame with b8 := 0x78 }) = .error (.frame9 .badChecksum) := by decide
theorem test_decode_unnamed_code :
    decode 32 (.frame9 ⟨0xFF, 0x01, 0xFE, 0, 0x01, 0, 0, 0, 0⟩) = .error (.frame9 (.unnamedCommand 0xFE)) := by
  decide

/-- A frame is numbered with byte 0 in bits [71:64] (R6, section 2.8). -/
theorem test_frame_bits : readFrame.bits = 0xFF0186000000000079 := by decide

/-! ## The single-step operations (sections 2.1 to 2.4, 2.7) -/

theorem test_build_guard_is_on_the_whole_value :
    nextIs (exec (.build 0x86 0x0100) unattached)
      (fun t => t.fout == ⟨0xFF, 0x01, 0x86, 0x01, 0, 0, 0, 0, 0x78⟩ && t.err == .ok) = true := by
  decide
theorem test_build_largest_sum :
    nextIs (exec (.build 0xFF 0xFFFF) ready)
      (fun t => t.fout == ⟨0xFF, 0x01, 0xFF, 0xFF, 0xFF, 0, 0, 0, 0x02⟩) = true := by decide
theorem test_seal_passes_byte_0_through :
    nextIs (exec (.sealFrame ⟨0x12, 0x80, 0x80, 0, 0, 0, 0, 0, 0x33⟩) ready)
      (fun t => t.fout == ⟨0x12, 0x80, 0x80, 0, 0, 0, 0, 0, 0⟩) = true := by decide
theorem test_checksum_ignores_bytes_0_and_8 :
    nextIs (exec (.checksum ⟨0x00, 0x01, 0x86, 0, 0, 0, 0, 0, 0x55⟩) ready)
      (fun t => t.bout == 0x79) = true := by decide
theorem test_checksum_largest_sum :
    nextIs (exec (.checksum ⟨0xFF, 0xFF, 0xFF, 0xFF, 0xFF, 0xFF, 0xFF, 0xFF, 0xFF⟩) ready)
      (fun t => t.bout == 0x07) = true := by decide
theorem test_verify_mismatch_is_no_error :
    nextIs (exec (.verify bad) { ready with vok := true, err := .crcE })
      (fun t => t.vok == false && t.err == .ok) = true := by decide
theorem test_verify_misses_a_swap :
    nextIs (exec (.verify ⟨0xFF, 0x86, 0x90, 0x01, 0x43, 0, 0, 0, 0xA6⟩) ready)
      (fun t => t.vok) = true := by decide
theorem test_attach_keeps_phase :
    nextIs (exec .attach { unattached with phase := .crcFail, err := .crcE })
      (fun t => t.att && t.phase == .crcFail && t.err == .ok) = true := by decide
theorem test_setTmo_longest :
    nextIs (step (asking unattached (.setTmo 4294967295)))
      (fun t => t.tmo == 4294967295) = true := by decide
theorem test_rdLast_copies_the_failing_frame :
    nextIs (exec .rdLast { ready with lastraw := bad })
      (fun t => t.fout == bad && t.lastraw == bad) = true := by decide

/-! ## SEND and the named commands (sections 2.5, 2.8) -/

theorem test_send_full_write :
    nextIs (step (asking ready (.send 0x86 0)))
      (fun t => t.txlog == readFrame.toList && t.phase == .txFlush && t.drained == false &&
        t.outPorts.txFrame == some 0xFF0186000000000079) = true := by decide
theorem test_send_short_write_complete :
    nextIs (exec (.send 0x88 0x07D0) { ready with par := par .complete, txCount := 4 })
      (fun t => t.txlog == [0xFF, 0x01, 0x88, 0x07] && t.phase == .txFlush && t.wshort) = true := by
  decide
theorem test_cAbc_enable :
    nextIs (exec (.cAbc 0x00A0) ready)
      (fun t => t.txlog == [0xFF, 0x01, 0x79, 0x00, 0xA0, 0, 0, 0, 0xE6]) = true := by decide
theorem test_cRead_unattached :
    nextIs (exec (.cRead 0) unattached)
      (fun t => t.err == .invalidE && t.txlog == []) = true := by decide
theorem test_cZero :
    nextIs (exec (.cZero 0) ready)
      (fun t => t.txlog == [0xFF, 0x01, 0x87, 0, 0, 0, 0, 0, 0x78]) = true := by decide
theorem test_cSpan :
    nextIs (exec (.cSpan 2000) ready)
      (fun t => t.txlog == [0xFF, 0x01, 0x88, 0x07, 0xD0, 0, 0, 0, 0xA0]) = true := by decide
theorem test_cRange :
    nextIs (exec (.cRange 5000) ready)
      (fun t => t.txlog == [0xFF, 0x01, 0x99, 0x13, 0x88, 0, 0, 0, 0xCB]) = true := by decide
theorem test_cLock :
    nextIs (exec (.cLock 0) ready)
      (fun t => t.txlog == [0xFF, 0x01, 0x9F, 0, 0, 0, 0, 0, 0x60]) = true := by decide
theorem test_cVersion :
    nextIs (exec (.cVersion 0) ready)
      (fun t => t.txlog == [0xFF, 0x01, 0xA0, 0, 0, 0, 0, 0, 0x5F]) = true := by decide
/-- V-S1: drained at 103 latches T1. -/
theorem test_flush_latches_t1 :
    nextIs (step ({ flushing with now := 102 }.withEdge
      { tick 1 [] with drained := some true }))
      (fun t => t.phase == .txSettle && t.t1 == 103) = true := by decide
/-- V-S1: the settle delay ends at 113, with OK after a full write. -/
theorem test_settle_ends_at_113 :
    nextIs (step (settling.withEdge (tick 10 [])))
      (fun t => t.phase == .idle && t.err == .ok) = true := by decide

/-! ## RECEIVE (section 2.6) -/

/-- V-R2: FE is not FF. -/
theorem test_seek_discards_fe :
    nextIs (step ({ seeking with rxq := [0xFE, 0xFF] }.withEdge (tick 0 [])))
      (fun t => t.phase == .seekingPrefix && t.rxcnt == 0 && t.rxq == [0xFF]) = true := by decide
/-- V-R4: a byte waits, and the deadline is reached in the same poll. -/
theorem test_deadline_before_ninth_byte :
    nextIs (step ((collecting 8).withEdge (tick 1000 [0xA6])))
      (fun t => t.phase == .timeout && t.err == .timeoutE && t.rxcnt == 8 && t.rxq == [0xA6] &&
        t.lastraw == Frame.zero) = true := by decide
/-- V-R4: one unit earlier the frame completes. -/
theorem test_ninth_byte_before_deadline :
    nextIs (step ((collecting 8).withEdge (tick 999 [0xA6])))
      (fun t => t.phase == .crcOk && t.fout == good && t.lastraw == good && t.rxcnt == 9) = true := by
  decide
/-- S9: the snapshot is taken of a failing frame. -/
theorem test_failing_frame_is_kept :
    nextIs (step ((collecting 8).withEdge (tick 0 [0xA7])))
      (fun t => t.phase == .crcFail && t.err == .crcE && t.lastraw == bad) = true := by decide
/-- V-R7: time wraps at 2^32; 1000 units after 0xFFFFFF00 is 0x2E8. -/
theorem test_deadline_across_the_wrap :
    nextIs (step ({ seeking with t0 := 0xFFFFFF00, now := 0xFFFFFF00 }.withEdge (tick 1000 [])))
      (fun t => t.phase == .timeout && t.now == 0x2E8) = true := by decide

/-! ## Reset and refusals (sections 2.9, 2.10) -/

theorem test_reset_in_mid_frame :
    nextIs (step ({ collecting 5 with tmo := 250, lastraw := bad, rxq := [0, 0, 0xA6] }.withEdge
      { requestEdge 9 (requestOf .attach) with rst := true }))
      (fun t => !t.att && t.tmo == 1000 && t.phase == .idle && t.rxcnt == 0 &&
        t.lastraw == Frame.zero && t.rxq == [0, 0, 0xA6]) = true := by decide
theorem test_request_while_busy :
    refusal? (step (asking seeking .attach)) = some .requestWhileBusy := by decide
theorem test_table_word_runs_first :
    nextIs (step (State.reset.withFetchWord 8 0x7)) (fun t => t.att) = true := by decide

/-! ## The surrounding software (S4 to S7) -/

/-- S4: the third call returns floor(1600 / 3) and the batch restarts. -/
theorem test_filter_batch :
    (filterReadings [400, 500, 700, 1200]
      { variant := .unknown, fwin := 3, fsum := 0, fcnt := 0 }).1 = [400, 500, 533, 1200] := by
  decide
/-- S6: the pair (0x10, 0x14) gives C. -/
theorem test_variant_c :
    classifyVariant (.ok ⟨0xFF, 0xA0, 0x10, 0x14, 0, 0, 0, 0, 0x3C⟩) = .c := by decide
/-- S7: byte 4 = 0x00 gives -40. -/
theorem test_temperature_is_signed :
    (PseudoOp.readTemperature.finish (.ok ⟨0xFF, 0x86, 0x02, 0x58, 0, 0, 0, 0, 0x20⟩)
      { variant := .b, fwin := 1, fsum := 0, fcnt := 0 }).1 = .temperature (-40) := by decide

/-- R180: with ATT = 0 the SEND fails, no RECEIVE is requested and the waiting byte stays. -/
theorem test_exchange_stops_after_failed_send :
    PseudoOp.readCO2.call.run 2 (Software.initial 1 0 0) { unattached with rxq := [0xFF] } =
      .returned (.failed .invalidE) (Software.initial 1 0 0)
        { unattached with rxq := [0xFF], err := .invalidE } := by decide
/-- R190: `return exchange(0x9F, 0)`, "OK with frame r = FOUT". -/
theorem test_lock_returns_its_exchange :
    (PseudoOp.lock.finish (.ok good) (Software.initial 1 0 0)).1 = .frame good := by decide

/-! ## Witnesses: states and operands that meet the hypotheses of each statement

A statement with several clauses has one witness per clause, at the end of the clause's range. -/

/-- The states below meet the invariants of R28. -/
theorem inv_ready : Inv ready := by constructor <;> decide
theorem inv_seeking : Inv seeking := by constructor <;> decide
theorem inv_collecting_1 : Inv (collecting 1) := by constructor <;> decide
theorem inv_collecting_8 : Inv (collecting 8) := by constructor <;> decide
theorem inv_flushing : Inv flushing := by constructor <;> decide
theorem inv_settling : Inv settling := by constructor <;> decide

/-- A state in which nothing but the script differs meets them too. -/
theorem inv_withEdge {s : State} (h : Inv s) (e : Edge) : Inv (s.withEdge e) :=
  ⟨h.par, h.tmo, h.t0, h.t1, h.now, h.rxcnt, h.seeking, h.collecting, h.crcOk, h.crcFail,
    h.timeout, h.noComplete, h.busyReady, h.snapshot⟩

theorem witness_ChecksumZeroEdge :
    sumBytes Frame.zero % 256 = 0 ∧ sumBytes (build 0x86 0x0079) % 256 = 0 ∧
      sumBytes (build 0x86 0x0079) = 256 ∧ ready.busy = false := by decide

theorem witness_AccumulatorWidthDoesNotMatter : 8 ≤ 8 := le_refl 8

theorem witness_SingleBitFlipDetected_first :
    good.get? 1 = some 0x86 ∧
      good.set? (0x86 ^^^ (1#8 <<< 7)) 1 = some ⟨0xFF, 0x06, 0x01, 0x90, 0x43, 0, 0, 0, 0xA6⟩ ∧
      verify good = true := by decide
theorem witness_SingleBitFlipDetected_last :
    good.get? 8 = some 0xA6 ∧
      good.set? (0xA6 ^^^ (1#8 <<< 0)) 8 = some ⟨0xFF, 0x86, 0x01, 0x90, 0x43, 0, 0, 0, 0xA7⟩ ∧
      verify good = true := by decide

theorem witness_CancellingChangesNotDetected :
    (⟨0xFF, 0x86, 0x90, 0x01, 0x43, 0, 0, 0, 0xA6⟩ : Frame).toList.tail.Perm good.toList.tail := by
  decide
/-- Section 2.4: the top bit flipped in bytes 7 and 8; the sums of bytes 1 to 8 differ by 0. -/
theorem witness_CancellingChangesNotDetected_sum :
    let g : Frame := ⟨0xFF, 0x86, 0x01, 0x90, 0x43, 0, 0, 0x80, 0x26⟩
    g ≠ good ∧ (sumBytes g + g.b8.toNat) % 256 = (sumBytes good + good.b8.toNat) % 256 := by
  decide

theorem witness_DecodeOfEncode : (Instr.setTmo (2 ^ 32 - 1)).wf 32 = true := by decide

theorem witness_DecodedShowsItsRow :
    decode 32 (.opreq { ReqPorts.idle with op := 0x8, tin := 2 ^ 32 - 1 }) =
        .ok (.setTmo (2 ^ 32 - 1)) ∧
      decode 32 (.frame9 readFrame) = .ok (.cRead 0) := by decide

/-- Two sets of inputs that differ in everything RECEIVE does not list. -/
theorem witness_UnlistedOperandsIgnored :
    let p : ReqPorts := { op := 0x6, cmd := 0, val := 0, fin := good, tin := 0 }
    let q : ReqPorts := { op := 0x6, cmd := 1, val := 1, fin := bad, tin := 2 ^ 40 }
    p ≠ q ∧ p.op = q.op ∧
      ((p.op = 0x1 ∨ p.op = 0x5) → p.cmd = q.cmd ∧ p.val = q.val) ∧
      ((p.op = 0x2 ∨ p.op = 0x3 ∨ p.op = 0x4) → p.fin = q.fin) ∧
      (p.op = 0x8 → p.tin = q.tin) := by decide

theorem witness_RowsNeverOverlap :
    (rowPattern (.cRead 0)).fits (.frame9 readFrame) = true ∧
      (rowPattern (.cRead 7)).fits (.frame9 readFrame) = true ∧
      (rowPattern (.build 0 0)).fits (.opreq { ReqPorts.idle with op := 0x1 }) = true := by decide

theorem witness_ReservedSelectorsRefused (op : BitVec 4) (_ : op = 0x0 ∨ op = 0xA ∨ op = 0xF) :
    let s := ready.withEdge (requestEdge 9 { ReqPorts.idle with op := op })
    s.edge.rst = false ∧ s.edge.req = true ∧
      s.edge.word = { ReqPorts.idle with op := op } ∧ (op = 0x0 ∨ 0xA ≤ op) := by
  refine ⟨rfl, rfl, rfl, ?_⟩
  revert op
  decide

theorem witness_StepRunsDecodedInstruction :
    let s := asking ready (.setTmo (2 ^ 32 - 1))
    s.edge.rst = false ∧ s.edge.req = true ∧
      decodeOpreq s.par.wT s.edge.word = .ok (.setTmo (2 ^ 32 - 1)) ∧
      (Instr.setTmo (2 ^ 32 - 1)).wf s.par.wT = true ∧
      s.edge.word = requestOf (.setTmo (2 ^ 32 - 1)) := by decide
theorem witness_StepRunsDecodedInstruction_command :
    let s := asking ready (.cVersion 0xFFFF)
    s.edge.rst = false ∧ s.edge.req = true ∧ (Instr.cVersion 0xFFFF).wf s.par.wT = true ∧
      s.edge.word = requestOf (.cVersion 0xFFFF) := by decide
theorem witness_StepRunsDecodedInstruction_table :
    ready.par.wT = Params.spec.wT ∧
      decodeTableWord 72 0xFF01A000000000005F = some (.cVersion 0) := by decide

theorem witness_RequestAcceptance :
    (EdgeIdle (ready.withEdge (tick 1 [])).edge ∧ (ready.withEdge (tick 1 [])).busy = false) ∧
      (EdgeIdle (seeking.withEdge (tick 1 [])).edge ∧ (seeking.withEdge (tick 1 [])).busy = true) ∧
      (tick 1 []).req = false := by
  simp only [EdgeIdle]
  decide

theorem witness_ResetStepSetsRegisters :
    ((collecting 5).withEdge { requestEdge 9 (requestOf .attach) with rst := true }).edge.rst = true := by
  decide

/-- A state that meets the invariants and takes a step, in the middle of a frame and at its end. -/
theorem witness_EveryStepKeepsInvariant_first :
    ∃ s t, Inv s ∧ s.phase = .collecting ∧ step s = .next t :=
  ⟨(collecting 1).withEdge (tick 0 [0x86]), _, inv_withEdge inv_collecting_1 _, rfl, rfl⟩
theorem witness_EveryStepKeepsInvariant_last :
    ∃ s t, Inv s ∧ s.rxcnt = 8 ∧ step s = .next t :=
  ⟨(collecting 8).withEdge (tick 1000 [0xA6]), _, inv_withEdge inv_collecting_8 _, rfl, rfl⟩

theorem witness_SoundStatesNeverFault : Inv (collecting 8) := inv_collecting_8

theorem witness_InContractStepsAnswer_reset :
    ∃ s, Inv s ∧ EdgeInContract s ∧ s.edge.rst = true :=
  ⟨seeking.withEdge { tick 0 [] with rst := true }, inv_withEdge inv_seeking _, .inl rfl, rfl⟩
theorem witness_InContractStepsAnswer_request :
    ∃ s, Inv s ∧ EdgeInContract s ∧ s.edge.rst = false ∧ s.edge.req = true :=
  ⟨asking ready (.send 0x86 0), inv_withEdge inv_ready _,
    .inr ⟨by decide, fun _ => ⟨rfl, .send 0x86 0, by decide⟩⟩, rfl, rfl⟩
theorem witness_InContractStepsAnswer_idle :
    ∃ s, Inv s ∧ EdgeInContract s ∧ EdgeIdle s.edge ∧ s.busy = true :=
  ⟨seeking.withEdge (tick 0 []), inv_withEdge inv_seeking _,
    .inr ⟨by decide, fun h => absurd h (by decide)⟩, ⟨rfl, rfl⟩, rfl⟩

theorem witness_CodecOperationsComplete : ready.busy = false ∧ unattached.busy = false := by decide
theorem witness_ConfigOperationsComplete :
    ready.busy = false ∧ unattached.busy = false ∧ 2 ^ 32 - 1 < 2 ^ ready.par.wT := by decide
/-- At 2^W_T, which no port can show, TMO would be 0 (log 15). -/
theorem witness_ConfigOperationsComplete_wide :
    ready.busy = false ∧ ¬ 2 ^ 32 < 2 ^ ready.par.wT ∧
      nextIs (exec (.setTmo (2 ^ 32)) ready) (fun t => t.tmo == 0) = true := by decide

theorem witness_SendFullWrite :
    ready.busy = false ∧ ready.att = true ∧ ready.txCount = 9 := by decide
theorem witness_SendShortWrite :
    (let s := { ready with txCount := 0 };
      s.busy = false ∧ s.att = true ∧ s.txCount.toNat < 9 ∧ s.par.shortWrite = .abort) ∧
    (let s := { ready with txCount := 8, par := par .complete };
      s.busy = false ∧ s.att = true ∧ s.txCount.toNat < 9 ∧ s.par.shortWrite = .complete) := by decide
theorem witness_SendRejectedUninitialized :
    unattached.busy = false ∧ unattached.att = false := by decide
theorem witness_WriteCountAboveNineRefused :
    (let s := { ready with txCount := 10 };
      s.busy = false ∧ s.att = true ∧ 9 < s.txCount.toNat) ∧
    (let s := { ready with txCount := 15 };
      s.busy = false ∧ s.att = true ∧ 9 < s.txCount.toNat) := by decide
theorem witness_NamedCommandsEmitTheirFrames :
    (let v : Val := 0xFFFF;
      (Instr.cVersion v, (0xA0 : Byte)) ∈ ([(.cAbc v, 0x79), (.cRead v, 0x86), (.cZero v, 0x87),
        (.cSpan v, 0x88), (.cRange v, 0x99), (.cLock v, 0x9F), (.cVersion v, 0xA0)] :
        List (Instr × Byte))) ∧
      ready.busy = false ∧ ready.att = true ∧ ready.txCount = 9 := by decide

theorem witness_FlushStepWaitsForDrain :
    (let s := flushing.withEdge { tick 0 [] with drained := some true };
      EdgeIdle s.edge ∧ s.phase = .txFlush ∧ s.sampled.drained = true) ∧
    (let s := flushing.withEdge (tick 0 []);
      EdgeIdle s.edge ∧ s.phase = .txFlush ∧ s.sampled.drained = false) := by
  simp only [EdgeIdle]
  decide
theorem witness_SettleStepEndsSend :
    (let s := settling.withEdge (tick 10 []);
      EdgeIdle s.edge ∧ s.phase = .txSettle ∧ s.par.settle ≤ s.sampled.elapsedT1) ∧
    (let s := settling.withEdge (tick 9 []);
      EdgeIdle s.edge ∧ s.phase = .txSettle ∧ s.sampled.elapsedT1 < s.par.settle) := by
  simp only [EdgeIdle]
  decide

theorem witness_ReceiveRejectedUninitialized :
    unattached.busy = false ∧ unattached.att = false := by decide
theorem witness_ReceiveStarts : ready.busy = false ∧ ready.att = true := by decide

theorem witness_PollAtDeadlineTimesOut :
    (let s := seeking.withEdge (tick 1000 [0xFF]);
      EdgeIdle s.edge ∧ s.phase = .seekingPrefix ∧ s.tmo ≤ s.sampled.elapsedT0) ∧
    (let s := (collecting 8).withEdge (tick 1000 [0xA6]);
      EdgeIdle s.edge ∧ s.phase = .collecting ∧ s.tmo ≤ s.sampled.elapsedT0) := by
  simp only [EdgeIdle]
  decide
theorem witness_PollSeekingReadsOneByte :
    let s := seeking.withEdge (tick 999 [0xFF, 0xFE])
    EdgeIdle s.edge ∧ s.phase = .seekingPrefix ∧ s.sampled.elapsedT0 < s.tmo ∧
      s.sampled.rxq = 0xFF :: [0xFE] := by
  simp only [EdgeIdle]
  decide
theorem witness_PollSeekingReadsOneByte_discard :
    let s := seeking.withEdge (tick 999 [0xFE])
    EdgeIdle s.edge ∧ s.phase = .seekingPrefix ∧ s.sampled.elapsedT0 < s.tmo ∧
      s.sampled.rxq = 0xFE :: [] ∧ (0xFE : Byte) ≠ 0xFF := by
  simp only [EdgeIdle]
  decide
theorem witness_PollCollectingStoresOneByte (n : BitVec 4) (_ : n = 1 ∨ n = 7 ∨ n = 8) :
    let s := (collecting n).withEdge (tick 999 [0xA6])
    EdgeIdle s.edge ∧ s.phase = .collecting ∧ 1 ≤ s.rxcnt.toNat ∧ s.rxcnt.toNat ≤ 8 ∧
      s.sampled.elapsedT0 < s.tmo ∧ s.sampled.rxq = 0xA6 :: [] := by
  simp only [EdgeIdle]
  revert n
  decide
theorem witness_PollCollectingStoresOneByte_match :
    csum { (collecting 8).rxbuf with b8 := 0xA6 } = 0xA6 ∧
      csum { (collecting 8).rxbuf with b8 := 0xA7 } ≠ 0xA7 := by decide
theorem witness_PollWithoutByteYields :
    let s := (collecting 8).withEdge (tick 999 [])
    EdgeIdle s.edge ∧ s.phase = .collecting ∧ s.sampled.elapsedT0 < s.tmo ∧ s.sampled.rxq = [] := by
  simp only [EdgeIdle]
  decide

theorem witness_TimeoutNeverEarly :
    ∃ s t, s.receiving = true ∧ step s = .next t ∧ t.phase = .timeout :=
  ⟨seeking.withEdge (tick 1000 []), _, rfl, rfl, rfl⟩

theorem witness_ElapsedIsTrueTime : 2 ^ 32 - 1 < 2 ^ 32 := by decide

theorem witness_SnapshotOnlyByCompletion_reset :
    ∃ s t, step s = .next t ∧ t.lastraw ≠ s.lastraw :=
  ⟨{ ready with lastraw := bad }.withEdge { tick 0 [] with rst := true }, _, rfl, by decide⟩
theorem witness_SnapshotOnlyByCompletion_frame :
    ∃ s t, step s = .next t ∧ t.lastraw ≠ s.lastraw :=
  ⟨(collecting 8).withEdge (tick 0 [0xA7]), _, rfl, by decide⟩

theorem witness_ControlRegistersHaveOneWriter_att :
    ∃ s t, step s = .next t ∧ t.att ≠ s.att :=
  ⟨asking unattached .attach, _, rfl, by decide⟩
theorem witness_ControlRegistersHaveOneWriter_tmo :
    ∃ s t, step s = .next t ∧ t.tmo ≠ s.tmo :=
  ⟨asking ready (.setTmo 0), _, rfl, by decide⟩
theorem witness_ControlRegistersHaveOneWriter_vok :
    ∃ s t, step s = .next t ∧ t.vok ≠ s.vok :=
  ⟨asking ready (.verify good), _, rfl, by decide⟩
theorem witness_ControlRegistersHaveOneWriter_bout :
    ∃ s t, step s = .next t ∧ t.bout ≠ s.bout :=
  ⟨asking ready (.checksum good), _, rfl, by decide⟩

theorem witness_TxlogGrowsByCommandFrames :
    ∃ s t, step s = .next t ∧ t.txlog ≠ s.txlog :=
  ⟨asking ready (.send 0x86 0), _, rfl, by decide⟩
theorem witness_RxqLosesAtMostItsHead :
    ∃ s t, step s = .next t ∧ t.rxq ≠ s.sampled.rxq :=
  ⟨seeking.withEdge (tick 0 [0x00]), _, rfl, by decide⟩
theorem witness_RxcntCountsStoredBytes :
    ∃ s t, Inv s ∧ step s = .next t ∧ t.rxcnt = 9 :=
  ⟨(collecting 8).withEdge (tick 0 [0xA7]), _, inv_withEdge inv_collecting_8 _, rfl, rfl⟩
theorem witness_PhaseFollowsTheTable_byte :
    ∃ s t, step s = .next t ∧ t.phase ≠ s.phase ∧ s.phase = .seekingPrefix :=
  ⟨seeking.withEdge (tick 999 [0xFF]), _, rfl, by decide, rfl⟩
theorem witness_PhaseFollowsTheTable_deadline :
    ∃ s t, step s = .next t ∧ t.phase ≠ s.phase ∧ t.phase = .timeout :=
  ⟨(collecting 8).withEdge (tick 1000 [0xA6]), _, rfl, by decide, rfl⟩
theorem witness_PhaseFollowsTheTable_rejection :
    ∃ s t, step s = .next t ∧ t.phase ≠ s.phase ∧ t.err = .invalidE :=
  ⟨asking { unattached with phase := .timeout } (.send 0x86 0), _, rfl, by decide, rfl⟩
theorem witness_PhaseFollowsTheTable_shortWrite :
    ∃ s t, step s = .next t ∧ t.phase ≠ s.phase ∧ t.err = .transportE :=
  ⟨asking { ready with phase := .timeout, txCount := 8 } (.cRead 0), _, rfl, by decide, rfl⟩

theorem witness_SendKeepsReceiveSide_start :
    ∃ s t, exec (.cVersion 0) s = .next t := ⟨ready, _, rfl⟩
theorem witness_SendKeepsReceiveSide_step :
    ∃ s t, s.sending = true ∧ s.edge.rst = false ∧ step s = .next t :=
  ⟨settling.withEdge (tick 10 []), _, rfl, rfl, rfl⟩
theorem witness_ReceiveKeepsSendSide_start :
    ∃ s t, exec .receive s = .next t := ⟨ready, _, rfl⟩
theorem witness_ReceiveKeepsSendSide_step :
    ∃ s t, s.receiving = true ∧ s.edge.rst = false ∧ step s = .next t :=
  ⟨(collecting 8).withEdge (tick 0 [0xA6]), _, rfl, rfl, rfl⟩

/-- Two different states that agree on everything defined, while a frame is being collected. -/
theorem witness_UndefinedRegistersUnobservable :
    ∃ s t, SameDefined s t ∧ s ≠ t ∧ s.receiving = true :=
  ⟨collecting 1, { collecting 1 with rxbuf := { good with b8 := 0x55 }, t1 := 7, wshort := true },
    ⟨rfl, by decide, by decide, fun _ => rfl, fun _ => by decide⟩, by decide, by decide⟩

/-- V-R2 with one byte of garbage: ten polls at `now` = 5000. -/
theorem witness_ReceiveDeliversTheFrame :
    let es := List.replicate 10 (tick 0 [])
    let s := { seeking with
      inputs := es ++ [], rxq := [0x12] ++ 0xFF :: ([0x86, 0x01, 0x90, 0x43, 0, 0, 0, 0xA6] ++ [0x77]) }
    s.phase = .seekingPrefix ∧ s.t0 < 2 ^ s.par.wT ∧ s.now < 2 ^ s.par.wT ∧ s.tmo < 2 ^ s.par.wT ∧
      (∀ e ∈ es, EdgeIdle e) ∧ s.elapsedT0 + totalAdvance es < s.tmo ∧
      (∀ b ∈ ([0x12] : List Byte), b ≠ 0xFF) ∧ es.length = 1 + 9 := by
  simp only [EdgeIdle]
  decide

theorem witness_ReceiveEndsByItsDeadline :
    ∃ (s : State) (es : List Edge), Inv s ∧ s.receiving = true ∧ s.inputs = es ++ [] ∧ es ≠ [] ∧
      (∀ e ∈ es, EdgeIdle e) ∧ s.tmo ≤ s.elapsedT0 + totalAdvance es ∧
      s.elapsedT0 + totalAdvance es < 2 ^ s.par.wT :=
  ⟨seeking.withEdge (tick 1000 []), [tick 1000 []], inv_withEdge inv_seeking _, rfl, rfl, by decide,
    by simp only [EdgeIdle]; decide, by decide, by decide⟩

/-- V-S1: one undrained step, the drain, the settle delay. -/
theorem witness_SendEndsAfterDrainAndSettle :
    ∃ (s : State) (before after : List Edge) (d : Edge),
      Inv s ∧ s.phase = .txFlush ∧ s.inputs = before ++ d :: (after ++ []) ∧
      (∀ e ∈ before, EdgeIdle e) ∧ EdgeIdle d ∧ (∀ e ∈ after, EdgeIdle e) ∧
      d.drained = some true ∧ after ≠ [] ∧ s.par.settle ≤ totalAdvance after ∧
      totalAdvance before + d.advance + totalAdvance after < 2 ^ s.par.wT :=
  ⟨((flushing.withEdge (tick 10 [])).withEdge { tick 1 [] with drained := some true }).withEdge
      (tick 2 []), [tick 2 []], [tick 10 []], { tick 1 [] with drained := some true },
    inv_withEdge (inv_withEdge (inv_withEdge inv_flushing _) _) _, rfl, rfl,
    by simp only [EdgeIdle]; decide, ⟨rfl, rfl⟩, by simp only [EdgeIdle]; decide, rfl, by decide,
    by decide, by decide⟩

theorem witness_UndrainedSendKeepsWaiting :
    ∃ (s : State) (es : List Edge), s.phase = .txFlush ∧ s.drained = false ∧ s.inputs = es ++ [] ∧
      es ≠ [] ∧ ∀ e ∈ es, EdgeIdle e ∧ e.drained ≠ some true :=
  ⟨flushing.withEdge (tick 5 []), [tick 5 []], rfl, rfl, rfl, by decide,
    by simp only [EdgeIdle]; decide⟩

/-- An environment for R139: one drain report, and 1000 units at every edge. -/
def passing : Environment := fun _ => { tick 1000 [] with drained := some true }

/-- An environment that never reports a drain. -/
def undraining : Environment := fun _ => tick 1000 []

theorem keepsStepping_passing : KeepsStepping passing := fun _ => ⟨rfl, rfl⟩

theorem witness_OperationsEndUnderProgress_receive :
    Inv (collecting 8) ∧ (collecting 8).receiving = true ∧
      ReceiveProgress (collecting 8) passing :=
  ⟨inv_collecting_8, rfl, ⟨keepsStepping_passing, ⟨0, by decide⟩⟩⟩
theorem witness_OperationsEndUnderProgress_send :
    Inv flushing ∧ flushing.sending = true ∧ SendProgress flushing passing :=
  ⟨inv_flushing, rfl, ⟨keepsStepping_passing, fun _ => ⟨0, (by decide : 10 ≤ 1000)⟩,
    fun h => absurd h (by decide), fun _ => ⟨0, by decide⟩⟩⟩
theorem witness_OperationsEndUnderProgress_settling :
    Inv settling ∧ settling.sending = true ∧ SendProgress settling passing :=
  ⟨inv_settling, rfl, ⟨keepsStepping_passing, fun _ => ⟨0, (by decide : 10 ≤ 1000)⟩,
    fun _ => ⟨0, by decide⟩, fun h => absurd h (by decide)⟩⟩

theorem drainedAfter_undraining (k : Nat) :
    drainedAfter false (undraining.first k) = false := by
  rw [Environment.first]
  induction List.range k with
  | nil => rfl
  | cons n ns ih => exact ih

theorem witness_OperationsEndUnderProgress_undrained :
    flushing.phase = .txFlush ∧ KeepsStepping undraining ∧
      ¬ DrainsEventually flushing.drained undraining := by
  refine ⟨rfl, fun _ => ⟨rfl, rfl⟩, ?_⟩
  rintro ⟨n, hn⟩
  rw [show flushing.drained = false from rfl, drainedAfter_undraining] at hn
  cases hn

/-- Windows 0 and 1, a full batch, and one that is one short. -/
theorem witness_FilterAveragesEachBatch :
    let w : Software := { variant := .unknown, fwin := 2, fsum := 0, fcnt := 0 }
    (0 ≤ 1 ∧ (Software.initial 0 7 7).fwin ≤ 1) ∧
      (2 ≤ w.fwin ∧ w.fsum = 0 ∧ w.fcnt = 0 ∧ [400, 501].length = w.fwin) ∧
      [400].length < w.fwin := by decide

/-- What a call returned, and the block's ERR then. -/
def returned? (o : CallOutcome) : Option (DriverResult × ResultCode) :=
  match o with
  | .returned r _ s => some (r, s.err)
  | .pending _ _ => none
  | .stopped => none

/-- An environment for one exchange: the drain, the settle delay, and no answer before the deadline. -/
def unanswered : State :=
  ((ready.withEdge (tick 1000 [])).withEdge (tick 0 [])).withEdge (tick 10 [])
    |>.withEdge { tick 1 [] with drained := some true } |>.withEdge (tick 0 [])

theorem witness_ExchangeStopsAtFirstError_send :
    PseudoOp.lock.requests = [.send 0x9F 0, .receive] ∧ unattached.busy = false ∧
      unattached.att = false ∧
      returned? (PseudoOp.lock.call.run 2 (Software.initial 1 0 0) unattached) =
        some (.failed .invalidE, .invalidE) := by decide
theorem witness_ExchangeStopsAtFirstError_receive :
    PseudoOp.lock.requests = [.send 0x9F 0, .receive] ∧ unanswered.busy = false ∧
      returned? (PseudoOp.lock.call.run 6 (Software.initial 1 0 0) unanswered) =
        some (.failed .timeoutE, .timeoutE) := by decide
theorem witness_ExchangeStopsAtFirstError_range :
    (-2000 : Int) ≠ 2000 ∧ (-2000 : Int) ≠ 5000 ∧ ready.busy = false := by decide
theorem witness_ExchangeStopsAtFirstError_configuration :
    PseudoOp.setRange 5000 ∈
      ([.calibrateZero, .lock, .setRange 2000, .setRange 5000] : List PseudoOp) := by decide

/-- One step for each strobe of R26: a byte read, a frame offered, an empty poll, none. -/
theorem witness_PortCodesTellStatesApart :
    nextIs (step (seeking.withEdge (tick 0 [0x12]))) (fun t => t.outPorts.rxRead) = true ∧
      nextIs (step (asking ready (.send 0x86 0)))
        (fun t => t.outPorts.txWrite && t.outPorts.txFrame == some 0xFF0186000000000079) = true ∧
      nextIs (step (seeking.withEdge (tick 999 []))) (fun t => t.outPorts.yield) = true ∧
      nextIs (step (flushing.withEdge (tick 0 [])))
        (fun t => !t.outPorts.rxRead && !t.outPorts.txWrite && !t.outPorts.yield &&
          t.outPorts.txFlush) = true := by decide
theorem witness_SoftwareClassifiesAndValidates :
    ((3000 : Int) ≠ 2000 ∧ (3000 : Int) ≠ 5000) ∧ ((-1 : Int) ≠ 2000 ∧ (-1 : Int) ≠ 5000) ∧
      ((2000 : Int) = 2000 ∨ (2000 : Int) = 5000) ∧ ((5000 : Int) = 2000 ∨ (5000 : Int) = 5000) := by
  decide

end Sys2Proof.Tests
end

/-! An equation for each case of the rules of SEND and RECEIVE, and what one step can do: a
constructor of `StepTo` for each event of R16 and R82, with its guard and the whole next state, and
`step_cases`, which says that there is no other event.  The rules of the whole machine below are
case analyses of it. -/

namespace Sys2Proof.Machine

open Sys2Proof

/-! ## Requests -/

/-- The OPREQ decoder reads the nine operations of R80 only, and a SETTMO operand that fits W_T bits
(R26). -/
theorem decodeOpreq_cases {w : Nat} {p : ReqPorts} {i : Instr} (h : decodeOpreq w p = .ok i) :
    (∃ c v, i = .build c v) ∨ (∃ f, i = .checksum f) ∨ (∃ f, i = .verify f) ∨
    (∃ f, i = .sealFrame f) ∨ (∃ c v, i = .send c v) ∨ i = .receive ∨ i = .attach ∨
    (∃ tin, i = .setTmo tin ∧ tin < 2 ^ w) ∨ i = .rdLast := by
  unfold decodeOpreq at h
  split_ifs at h <;> cases h <;> simp_all

/-- A step is a request for one instruction at most. -/
theorem requested_unique {s : State} {i j : Instr} (hi : Requested s i) (hj : Requested s j) :
    i = j := by
  obtain ⟨-, -, hi⟩ := hi
  obtain ⟨-, -, hj⟩ := hj
  exact Except.ok.inj (hi.symm.trans hj)

/-- A step that is a request for something else is no request for a SEND. -/
theorem not_requested_send {s : State} {i : Instr} (hi : Requested s i) (hr : i.row ≠ .send)
    (c : Byte) (v : Val) : ¬ Requested s (.send c v) :=
  fun h => hr (congrArg Instr.row (requested_unique hi h))

theorem not_edgeIdle_of_requested {s : State} {i : Instr} (hi : Requested s i) :
    ¬ EdgeIdle s.edge :=
  fun h => Bool.false_ne_true (h.2.symm.trans hi.2.1)

theorem not_requested_of_edgeIdle {s : State} (h : EdgeIdle s.edge) (i : Instr) :
    ¬ Requested s i :=
  fun hi => not_edgeIdle_of_requested hi h

/-! ## The phases -/

theorem receiving_iff {s : State} :
    s.receiving = true ↔ s.phase = .seekingPrefix ∨ s.phase = .collecting := by
  simp [State.receiving]

theorem sending_iff {s : State} :
    s.sending = true ↔ s.phase = .txFlush ∨ s.phase = .txSettle := by
  simp [State.sending]

theorem busy_iff {s : State} : s.busy = true ↔ s.receiving = true ∨ s.sending = true := by
  unfold State.busy State.receiving State.sending
  cases s.phase <;> decide

/-! ## An equation per case of each rule -/

section SendStart

variable {c : Byte} {v : Val} {s : State}

theorem sendStart_rejected (ha : s.att = false) :
    sendStart c v s = .next (raiseError .idle .invalidE s) := by
  simp [sendStart, ha]

theorem sendStart_full (ha : s.att = true) (hn : s.txCount.toNat = 9) :
    sendStart c v s = .next { txWrite s.txCount.toNat { s with txbuf := build c v } with
                              wshort := false, phase := .txFlush } := by
  simp [sendStart, afterWrite, ha, hn]

theorem sendStart_abort (ha : s.att = true) (hn : s.txCount.toNat < 9)
    (hp : s.par.shortWrite = .abort) :
    sendStart c v s = .next (retireSend (raiseError .idle .transportE
      (txWrite s.txCount.toNat { s with txbuf := build c v }))) := by
  simp [sendStart, afterWrite, ha, hn, hn.ne, hp]

theorem sendStart_complete (ha : s.att = true) (hn : s.txCount.toNat < 9)
    (hp : s.par.shortWrite = .complete) :
    sendStart c v s = .next { txWrite s.txCount.toNat { s with txbuf := build c v } with
                              wshort := true, phase := .txFlush } := by
  simp [sendStart, afterWrite, ha, hn, hn.ne, hp]

theorem sendStart_refused (ha : s.att = true) (hn : 9 < s.txCount.toNat) :
    sendStart c v s = .refused .txCountAboveNine := by
  simp [sendStart, afterWrite, ha, hn.ne', hn.le]

end SendStart

theorem receiveStart_rejected {s : State} (ha : s.att = false) :
    receiveStart s = .next (drawFout (raiseError .idle .invalidE s)) := by
  simp [receiveStart, ha]

theorem receiveStart_ready {s : State} (ha : s.att = true) :
    receiveStart s = .next { s with t0 := s.now, rxcnt := 0, phase := .seekingPrefix } :=
  if_pos ha

theorem flushStep_drained {s : State} (hd : s.drained = true) :
    flushStep s = .next { s with t1 := s.now, phase := .txSettle } := if_pos hd

theorem flushStep_waiting {s : State} (hd : s.drained = false) : flushStep s = .next s := by
  simp [flushStep, hd]

theorem settleStep_settled {s : State} (hs : s.settled) :
    settleStep s = .next (retireSend (raiseError .idle s.sendResult s)) := if_pos hs

theorem settleStep_waiting {s : State} (hs : ¬ s.settled) : settleStep s = .next s := if_neg hs

section PollStep

variable {onByte : Byte → State → Answer} {s : State}

theorem pollStep_deadline (hd : s.deadlineReached) : pollStep onByte s = timeoutStep s := if_pos hd

theorem pollStep_empty (hd : ¬ s.deadlineReached) (hq : s.rxq = []) :
    pollStep onByte s = .next (yieldPoll s) := by
  simp [pollStep, hd, rxRead_nil hq]

theorem pollStep_byte {b : Byte} {q : List Byte} (hd : ¬ s.deadlineReached) (hq : s.rxq = b :: q) :
    pollStep onByte s = onByte b { s with rxq := q, out := { s.out with rxRead := true } } := by
  simp [pollStep, hd, rxRead_cons hq]

end PollStep

theorem seekByte_match (s : State) :
    seekByte Config.prefixByte s = .next
      { s with rxbuf := { s.rxbuf with b0 := Config.prefixByte }, rxcnt := 1,
               phase := .collecting } := if_pos rfl

theorem seekByte_other {b : Byte} (hb : b ≠ Config.prefixByte) (s : State) :
    seekByte b s = .next s := if_neg hb

section CollectByte

variable {b : Byte} {f : Frame} {s : State}

theorem collectByte_fault (hf : s.rxbuf.set? b s.rxcnt.toNat = none) :
    collectByte b s = .fault .frameIndex := by
  simp [collectByte, storeRx, hf]

theorem collectByte_stored (hf : s.rxbuf.set? b s.rxcnt.toNat = some f) (hn : s.rxcnt + 1 ≠ 9) :
    collectByte b s = .next { s with rxbuf := f, rxcnt := s.rxcnt + 1 } := by
  simp only [collectByte, storeRx, hf, hn, if_false]

theorem collectByte_ninth (hf : s.rxbuf.set? b s.rxcnt.toNat = some f) (hn : s.rxcnt + 1 = 9) :
    collectByte b s = .next (completeFrame { s with rxbuf := f, rxcnt := s.rxcnt + 1 }) := by
  simp only [collectByte, storeRx, hf, hn, if_true]

end CollectByte

theorem completeFrame_match {s : State} (hv : verify s.rxbuf = true) :
    completeFrame s = retireReceive
      { s with lastraw := s.rxbuf, fout := s.rxbuf, phase := .crcOk, err := .ok } := by
  obtain ⟨-, h⟩ | ⟨hn, -⟩ := completeFrame_cases s
  · exact h
  · simp [hv] at hn

theorem completeFrame_mismatch {s : State} (hv : verify s.rxbuf = false) :
    completeFrame s = retireReceive (drawFout
      { s with lastraw := s.rxbuf, phase := .crcFail, err := .crcE }) := by
  obtain ⟨hn, -⟩ | ⟨-, h⟩ := completeFrame_cases s
  · simp [hv] at hn
  · exact h

/-- There is no byte to store outside the indices 0 to 8 (R41). -/
theorem set?_none_iff {f : Frame} {b : Byte} {i : Nat} : f.set? b i = none ↔ 8 < i := by
  constructor
  · intro h
    by_contra hi
    obtain ⟨g, hg⟩ := set?_isSome f b (i := i) (by omega)
    simp [h] at hg
  · intro hi
    obtain ⟨k, rfl⟩ : ∃ k, i = k + 9 := ⟨i - 9, by omega⟩
    rfl

theorem set?_index_le {f g : Frame} {b : Byte} {i : Nat} (h : f.set? b i = some g) : i ≤ 8 := by
  by_contra hi
  simp [set?_none_iff.2 (Nat.lt_of_not_le hi)] at h

theorem continueOp_txFlush {s : State} (h : s.phase = .txFlush) :
    continueOp s = flushStep s := by
  simp [continueOp, h]

theorem continueOp_txSettle {s : State} (h : s.phase = .txSettle) :
    continueOp s = settleStep s := by
  simp [continueOp, h]

theorem continueOp_seekingPrefix {s : State} (h : s.phase = .seekingPrefix) :
    continueOp s = pollStep seekByte s := by
  simp [continueOp, h]

theorem continueOp_collecting {s : State} (h : s.phase = .collecting) :
    continueOp s = pollStep collectByte s := by
  simp [continueOp, h]

/-- With no operation in progress nothing changes (R82). -/
theorem continueOp_resting {s : State} (h : s.busy = false) : continueOp s = .next s := by
  unfold State.busy at h
  unfold continueOp
  cases hp : s.phase <;> simp_all [Phase.busy]

/-! ## The step -/

/-- The sampled state after `RxRead` has left `q` in RXQ (R47). -/
def State.readLeaving (s : State) (q : List Byte) : State :=
  { s.sampled with rxq := q, out := { s.sampled.out with rxRead := true } }

/-- `StepTo s t`: one of the machine's events takes `s` to `t`. -/
inductive StepTo (s : State) : State → Prop where
  /-- R230. -/
  | reset (hr : s.edge.rst = true) : StepTo s (resetBlock s.sampled)
  /-- BUILD, SEAL and RDLAST (R101, R103, R153). -/
  | setFout {i : Instr} {g : Frame} (hi : Requested s i) (hrow : i.row ≠ .send)
      (hb : s.busy = false) : StepTo s (finishOk { s.sampled with fout := g })
  /-- R104. -/
  | checksum {f : Frame} (hi : Requested s (.checksum f)) (hb : s.busy = false) :
      StepTo s (finishOk { s.sampled with bout := csum f })
  /-- R109. -/
  | verify {f : Frame} (hi : Requested s (.verify f)) (hb : s.busy = false) :
      StepTo s (finishOk { s.sampled with vok := Sys2Proof.verify f })
  /-- R151. -/
  | attach (hi : Requested s .attach) (hb : s.busy = false) :
      StepTo s (finishOk { s.sampled with att := true })
  /-- R152. -/
  | setTmo {tin : Nat} (hi : Requested s (.setTmo tin)) (hb : s.busy = false)
      (hw : tin < 2 ^ s.par.wT) : StepTo s (finishOk { s.sampled with tmo := tin })
  /-- R121. -/
  | sendRejected {c : Byte} {v : Val} (hi : Requested s (.send c v)) (hb : s.busy = false)
      (ha : s.att = false) : StepTo s (raiseError .idle .invalidE s.sampled)
  /-- R122, and R123 under policy complete: the flush begins. -/
  | sendWritten {c : Byte} {v : Val} {n : Nat} {short : Bool} (hi : Requested s (.send c v))
      (hb : s.busy = false) (ha : s.att = true)
      (hn : s.edge.txCount = 9 ∨ (s.edge.txCount.toNat < 9 ∧ s.par.shortWrite = .complete)) :
      StepTo s { txWrite n { s.sampled with txbuf := build c v } with
                 wshort := short, phase := .txFlush }
  /-- R123 under policy abort. -/
  | sendAborted {c : Byte} {v : Val} {n : Nat} (hi : Requested s (.send c v))
      (hb : s.busy = false) (ha : s.att = true) (hn : s.edge.txCount.toNat < 9)
      (hp : s.par.shortWrite = .abort) :
      StepTo s (retireSend (raiseError .idle .transportE
        (txWrite n { s.sampled with txbuf := build c v })))
  /-- R127. -/
  | receiveRejected (hi : Requested s .receive) (hb : s.busy = false) (ha : s.att = false) :
      StepTo s (drawFout (raiseError .idle .invalidE s.sampled))
  /-- R128. -/
  | receiveStarted (hi : Requested s .receive) (hb : s.busy = false) (ha : s.att = true) :
      StepTo s { s.sampled with t0 := s.sampled.now, rxcnt := 0, phase := .seekingPrefix }
  /-- Nothing to do, or a wait of SEND that goes on (R82, R124, R125). -/
  | waited (he : EdgeIdle s.edge) (hr : s.receiving = false) : StepTo s s.sampled
  /-- R124. -/
  | drained (he : EdgeIdle s.edge) (hp : s.phase = .txFlush) (hd : s.sampled.drained = true) :
      StepTo s { s.sampled with t1 := s.sampled.now, phase := .txSettle }
  /-- R125. -/
  | settled (he : EdgeIdle s.edge) (hp : s.phase = .txSettle)
      (hs : s.par.settle ≤ s.sampled.elapsedT1) :
      StepTo s (retireSend (raiseError .idle s.sampled.sendResult s.sampled))
  /-- R129. -/
  | timedOut (he : EdgeIdle s.edge) (hr : s.receiving = true) (ht : s.tmo ≤ s.sampled.elapsedT0) :
      StepTo s (retireReceive (drawFout (raiseError .timeout .timeoutE s.sampled)))
  /-- R132. -/
  | yielded (he : EdgeIdle s.edge) (hr : s.receiving = true) (ht : s.sampled.elapsedT0 < s.tmo)
      (hq : s.sampled.rxq = []) : StepTo s (yieldPoll s.sampled)
  /-- R130, a byte other than PREFIX. -/
  | discarded {b : Byte} {q : List Byte} (he : EdgeIdle s.edge) (hp : s.phase = .seekingPrefix)
      (ht : s.sampled.elapsedT0 < s.tmo) (hq : s.sampled.rxq = b :: q) :
      StepTo s (s.readLeaving q)
  /-- R130, PREFIX. -/
  | synchronised {q : List Byte} (he : EdgeIdle s.edge) (hp : s.phase = .seekingPrefix)
      (ht : s.sampled.elapsedT0 < s.tmo) (hq : s.sampled.rxq = Config.prefixByte :: q) :
      StepTo s { s.readLeaving q with
                 rxbuf := { s.rxbuf with b0 := Config.prefixByte }, rxcnt := 1,
                 phase := .collecting }
  /-- R131, a byte before the ninth. -/
  | stored {b : Byte} {q : List Byte} {f : Frame} (he : EdgeIdle s.edge)
      (hp : s.phase = .collecting) (ht : s.sampled.elapsedT0 < s.tmo)
      (hq : s.sampled.rxq = b :: q) (hn : s.rxcnt.toNat < 8)
      (hf : s.rxbuf.set? b s.rxcnt.toNat = some f) :
      StepTo s { s.readLeaving q with rxbuf := f, rxcnt := s.rxcnt + 1 }
  /-- R131, the ninth byte, of a frame that verifies. -/
  | accepted {b : Byte} {q : List Byte} {f : Frame} (he : EdgeIdle s.edge)
      (hp : s.phase = .collecting) (ht : s.sampled.elapsedT0 < s.tmo)
      (hq : s.sampled.rxq = b :: q) (hn : s.rxcnt = 8) (hf : f = { s.rxbuf with b8 := b })
      (hv : Sys2Proof.verify f = true) :
      StepTo s (retireReceive { s.readLeaving q with
        rxbuf := f, rxcnt := 9, lastraw := f, fout := f, phase := .crcOk, err := .ok })
  /-- R131, the ninth byte, of a frame that does not. -/
  | failed {b : Byte} {q : List Byte} {f : Frame} (he : EdgeIdle s.edge)
      (hp : s.phase = .collecting) (ht : s.sampled.elapsedT0 < s.tmo)
      (hq : s.sampled.rxq = b :: q) (hn : s.rxcnt = 8) (hf : f = { s.rxbuf with b8 := b })
      (hv : Sys2Proof.verify f = false) :
      StepTo s (retireReceive (drawFout { s.readLeaving q with
        rxbuf := f, rxcnt := 9, lastraw := f, phase := .crcFail, err := .crcE }))

/-- What an accepted SEND can do (R121 to R123). -/
theorem stepTo_of_sendStart {c : Byte} {v : Val} {s t : State} (hi : Requested s (.send c v))
    (hb : s.busy = false) (h : sendStart c v s.sampled = .next t) : StepTo s t := by
  obtain ⟨ha, rfl⟩ | ⟨ha, hn, rfl⟩ | ⟨ha, hn, hp, rfl⟩ | ⟨ha, hn, hp, rfl⟩ := sendStart_cases h
  · exact .sendRejected hi hb ha
  · exact .sendWritten hi hb ha (.inl (BitVec.eq_of_toNat_eq hn))
  · exact .sendAborted hi hb ha hn hp
  · exact .sendWritten hi hb ha (.inr ⟨hn, hp⟩)

/-- An operation of one step that was accepted has done its work on the state (R100, R150). -/
theorem accept_single {f : State → State} {s t : State}
    (h : accept s (fun s => .next (f s)) = .next t) : s.busy = false ∧ t = f s := by
  obtain ⟨hb, hk⟩ := accept_next h
  exact ⟨hb, (Host.Outcome.next.inj hk).symm⟩

/-- What a request can do (R82). -/
theorem stepTo_of_exec {i : Instr} {s t : State} (hi : Requested s i)
    (h : exec i s.sampled = .next t) : StepTo s t := by
  obtain ⟨c, v, rfl⟩ | ⟨f, rfl⟩ | ⟨f, rfl⟩ | ⟨f, rfl⟩ | ⟨c, v, rfl⟩ | rfl | rfl | ⟨tin, rfl, hw⟩ |
    rfl := decodeOpreq_cases hi.2.2
  · obtain ⟨hb, rfl⟩ := accept_single ((exec_build _ _ _).symm.trans h)
    exact .setFout hi (by simp [Instr.row]) hb
  · obtain ⟨hb, rfl⟩ := accept_single ((exec_checksum _ _).symm.trans h)
    exact .checksum hi hb
  · obtain ⟨hb, rfl⟩ := accept_single ((exec_verify _ _).symm.trans h)
    exact .verify hi hb
  · obtain ⟨hb, rfl⟩ := accept_single ((exec_sealFrame _ _).symm.trans h)
    exact .setFout hi (by simp [Instr.row]) hb
  · obtain ⟨hb, hk⟩ := accept_next ((exec_send _ _ _).symm.trans h)
    exact stepTo_of_sendStart hi hb hk
  · obtain ⟨hb, hk⟩ := accept_next ((exec_receive _).symm.trans h)
    obtain ⟨ha, rfl⟩ | ⟨ha, rfl⟩ := receiveStart_cases hk
    · exact .receiveRejected hi hb ha
    · exact .receiveStarted hi hb ha
  · obtain ⟨hb, rfl⟩ := accept_single ((exec_attach _).symm.trans h)
    exact .attach hi hb
  · obtain ⟨hb, rfl⟩ := accept_single ((exec_setTmo _ _).symm.trans h)
    rw [sampled_par, truncTime_of_lt hw]
    exact .setTmo hi hb hw
  · obtain ⟨hb, rfl⟩ := accept_single ((exec_rdLast _).symm.trans h)
    exact .setFout hi (by simp [Instr.row]) hb

/-- What a poll step can do, up to the rule for a byte read (R133). -/
theorem stepTo_of_pollStep {onByte : Byte → State → Answer} {s t : State} (he : EdgeIdle s.edge)
    (hr : s.receiving = true) (h : pollStep onByte s.sampled = .next t)
    (hbyte : ∀ b q, s.sampled.elapsedT0 < s.tmo → s.sampled.rxq = b :: q →
      onByte b (s.readLeaving q) = .next t → StepTo s t) : StepTo s t := by
  obtain ⟨ht, rfl⟩ | ⟨ht, hq, rfl⟩ | ⟨ht, b, q, hq, hk⟩ := pollStep_cases h
  · exact .timedOut he hr ht
  · exact .yielded he hr (Nat.lt_of_not_le ht) hq
  · exact hbyte b q (Nat.lt_of_not_le ht) hq hk

/-- The byte rule of a seeking poll (R130). -/
theorem stepTo_of_seekByte {b : Byte} {q : List Byte} {s t : State} (he : EdgeIdle s.edge)
    (hp : s.phase = .seekingPrefix) (ht : s.sampled.elapsedT0 < s.tmo)
    (hq : s.sampled.rxq = b :: q) (h : seekByte b (s.readLeaving q) = .next t) : StepTo s t := by
  obtain ⟨rfl, rfl⟩ | ⟨-, rfl⟩ := seekByte_cases h
  · exact .synchronised he hp ht hq
  · exact .discarded he hp ht hq

/-- The byte rule of a collecting poll (R131). -/
theorem stepTo_of_collectByte {b : Byte} {q : List Byte} {s t : State} (he : EdgeIdle s.edge)
    (hp : s.phase = .collecting) (ht : s.sampled.elapsedT0 < s.tmo)
    (hq : s.sampled.rxq = b :: q) (h : collectByte b (s.readLeaving q) = .next t) :
    StepTo s t := by
  obtain ⟨f, hf, ⟨hn, rfl⟩ | ⟨hn, rfl⟩⟩ := collectByte_cases h
  · have hlt : s.rxcnt.toNat < 8 := by
      have hle : s.rxcnt.toNat ≤ 8 := set?_index_le hf
      have hne : s.rxcnt + 1 ≠ 9 := hn
      bv_omega
    exact .stored he hp ht hq hlt hf
  · have h8 : s.rxcnt = 8 := by
      have hn : s.rxcnt + 1 = 9 := hn
      bv_omega
    have hf : f = { s.rxbuf with b8 := b } := by
      have hf : s.rxbuf.set? b s.rxcnt.toNat = some f := hf
      rw [h8] at hf
      exact (Option.some.inj hf).symm
    obtain ⟨hv, heq⟩ | ⟨hv, heq⟩ := completeFrame_cases
      { s.readLeaving q with rxbuf := f, rxcnt := (s.readLeaving q).rxcnt + 1 }
    · rw [heq, hn]
      exact .accepted he hp ht hq h8 hf hv
    · rw [heq, hn]
      exact .failed he hp ht hq h8 hf hv

/-- What a step without reset or request can do (R82). -/
theorem stepTo_of_continueOp {s t : State} (he : EdgeIdle s.edge)
    (h : continueOp s.sampled = .next t) : StepTo s t := by
  cases hp : s.phase with
  | txFlush =>
    rw [continueOp_txFlush (s := s.sampled) hp] at h
    obtain ⟨hd, rfl⟩ | ⟨-, rfl⟩ := flushStep_cases h
    · exact .drained he hp hd
    · exact .waited he (by simp [State.receiving, hp])
  | txSettle =>
    rw [continueOp_txSettle (s := s.sampled) hp] at h
    obtain ⟨hs, rfl⟩ | ⟨-, rfl⟩ := settleStep_cases h
    · exact .settled he hp hs
    · exact .waited he (by simp [State.receiving, hp])
  | seekingPrefix =>
    rw [continueOp_seekingPrefix (s := s.sampled) hp] at h
    exact stepTo_of_pollStep he (receiving_iff.2 (.inl hp)) h fun _ _ => stepTo_of_seekByte he hp
  | collecting =>
    rw [continueOp_collecting (s := s.sampled) hp] at h
    exact stepTo_of_pollStep he (receiving_iff.2 (.inr hp)) h fun _ _ =>
      stepTo_of_collectByte he hp
  | idle | complete | crcOk | crcFail | timeout =>
    have hb : s.sampled.busy = false := by simp [State.busy, Phase.busy, hp]
    rw [continueOp_resting hb] at h
    obtain rfl := Host.Outcome.next.inj h
    exact .waited he (by simp [State.receiving, hp])

/-- Everything a step can do when it answers a next state. -/
theorem step_cases {s t : State} (h : step s = .next t) : StepTo s t := by
  obtain ⟨hr, rfl⟩ | ⟨hr, hq, i, hi, hk⟩ | ⟨hr, hq, hk⟩ := blockStep_cases h
  · exact .reset hr
  · exact stepTo_of_exec ⟨hr, hq, hi⟩ hk
  · exact stepTo_of_continueOp ⟨hr, hq⟩ hk

end Sys2Proof.Machine

/-! The invariants of R28: after reset, and kept by every step. -/

namespace Sys2Proof.Machine

open Sys2Proof

theorem inv_sampled {s : State} (h : Inv s) : Inv s.sampled :=
  { h with now := truncTime_lt _ _ }

/-- A single-step operation writes no register that an invariant of R28 speaks of, but ERR. -/
theorem inv_finishOk {s : State} (h : Inv s) : Inv (finishOk s) :=
  { h with crcOk := fun hp => have ⟨hn, _, hb, hv⟩ := h.crcOk hp; ⟨hn, rfl, hb, hv⟩ }

/-- In IDLE only the ranges, the mode and the snapshot are restricted (R28). -/
theorem inv_setIdle {s : State} (h : Inv s) (e : ResultCode) : Inv (raiseError .idle e s) where
  __ := h
  seeking := nofun
  collecting := nofun
  crcOk := nofun
  crcFail := nofun
  timeout := nofun
  noComplete := nofun
  busyReady := nofun

theorem inv_drawFout {s : State} (h : Inv s) : Inv (drawFout s) := { h with }

theorem inv_retireSend {s : State} (h : Inv s) : Inv (retireSend s) :=
  { h with t1 := truncTime_lt _ _ }

/-- RXBUF and T0 may become anything once RECEIVE is over. -/
theorem inv_retireReceive {s : State} (h : Inv s) (hp : s.phase ≠ .collecting) :
    Inv (retireReceive s) :=
  { h with t0 := truncTime_lt _ _, collecting := fun hc => absurd hc hp }

theorem inv_txWrite {s : State} (h : Inv s) (f : Frame) (n : Nat) :
    Inv (txWrite n { s with txbuf := f }) := { h with }

/-- The busy phases of SEND ask for ATT = 1 and no more (R28 item 7). -/
theorem inv_enterSend {s : State} {p : Phase} (h : Inv s) (ha : s.att = true)
    (hp : p = .txFlush ∨ p = .txSettle) : Inv { s with phase := p } := by
  rcases hp with rfl | rfl <;> exact
    { h with
      seeking := nofun, collecting := nofun, crcOk := nofun, crcFail := nofun, timeout := nofun
      noComplete := nofun, busyReady := fun _ => ha }

theorem inv_resetBlock {s : State} (h : Inv s) : Inv (resetBlock s) where
  par := h.par
  tmo := h.par.1
  t0 := truncTime_lt _ _
  t1 := truncTime_lt _ _
  now := h.now
  rxcnt := Nat.zero_le 9
  seeking := nofun
  collecting := nofun
  crcOk := nofun
  crcFail := nofun
  timeout := nofun
  noComplete := nofun
  busyReady := nofun
  snapshot := .inl rfl

/-- A poll that has read a byte and stored none. -/
theorem inv_readLeaving {s : State} (h : Inv s) (q : List Byte) : Inv (s.readLeaving q) :=
  { inv_sampled h with }

/-- While a frame is collected its byte 0 is PREFIX, whatever the byte at another index (R28). -/
theorem inv_stored {s : State} {b : Byte} {f : Frame} (h : Inv s) (hp : s.phase = .collecting)
    (hn : s.rxcnt.toNat < 8) (hf : s.rxbuf.set? b s.rxcnt.toNat = some f) :
    Inv { s with rxbuf := f, rxcnt := s.rxcnt + 1 } := by
  obtain ⟨h1, -, h0⟩ := h.collecting hp
  have hs : (s.rxcnt + 1).toNat = s.rxcnt.toNat + 1 := by bv_omega
  have other {p : Phase} (hne : p ≠ .collecting) : s.phase ≠ p := hp ▸ hne.symm
  exact { h with
    rxcnt := by show (s.rxcnt + 1).toNat ≤ 9; omega
    seeking := fun hc => absurd hc (other nofun)
    collecting := fun _ => by
      show 1 ≤ (s.rxcnt + 1).toNat ∧ (s.rxcnt + 1).toNat ≤ 8 ∧ f.b0 = Config.prefixByte
      exact ⟨by omega, by omega, (set?_b0 h1 hf).trans h0⟩
    crcOk := fun hc => absurd hc (other nofun)
    crcFail := fun hc => absurd hc (other nofun)
    timeout := fun hc => absurd hc (other nofun) }

/-- Every event keeps the invariants. -/
theorem inv_stepTo {s t : State} (h : Inv s) (hst : StepTo s t) : Inv t := by
  have hs := inv_sampled h
  cases hst with
  | reset => exact inv_resetBlock hs
  | setFout | checksum | verify => exact inv_finishOk { hs with }
  | attach => exact inv_finishOk { hs with busyReady := fun _ => rfl }
  | setTmo _ _ hw => exact inv_finishOk { hs with tmo := hw }
  | sendRejected => exact inv_setIdle hs _
  | @sendWritten c v n short hi hb ha =>
    exact { inv_enterSend (inv_txWrite hs (build c v) n) ha (.inl rfl) with }
  | sendAborted => exact inv_retireSend (inv_setIdle (inv_txWrite hs _ _) _)
  | receiveRejected => exact inv_drawFout (inv_setIdle hs _)
  | receiveStarted hi hb ha =>
    exact { hs with
      t0 := hs.now, rxcnt := Nat.zero_le 9
      seeking := fun _ => rfl, collecting := nofun, crcOk := nofun, crcFail := nofun
      timeout := nofun, noComplete := nofun, busyReady := fun _ => ha }
  | waited => exact hs
  | drained he hp =>
    have ha := h.busyReady (busy_iff.2 (.inr (sending_iff.2 (.inl hp))))
    exact { inv_enterSend hs ha (.inr rfl) with t1 := hs.now }
  | settled => exact inv_retireSend (inv_setIdle hs _)
  | timedOut he hr =>
    have hn : s.rxcnt.toNat ≤ 8 := by
      rcases receiving_iff.1 hr with hp | hp
      · simp [h.seeking hp]
      · obtain ⟨-, h8, -⟩ := h.collecting hp
        exact h8
    exact inv_retireReceive { inv_drawFout hs with
      seeking := nofun, collecting := nofun, crcOk := nofun, crcFail := nofun
      timeout := fun _ => hn, noComplete := nofun, busyReady := nofun } nofun
  | yielded => exact { hs with }
  | discarded => exact inv_readLeaving h _
  | @synchronised q he hp =>
    exact { inv_readLeaving h q with
      rxcnt := by simp
      seeking := nofun, collecting := fun _ => ⟨by simp, by simp, rfl⟩, crcOk := nofun
      crcFail := nofun, timeout := nofun, noComplete := nofun
      busyReady := fun _ => h.busyReady (busy_iff.2 (.inl (receiving_iff.2 (.inl hp)))) }
  | stored he hp ht hq hn hf => exact inv_stored (inv_readLeaving h _) hp hn hf
  | @accepted b q f he hp ht hq hn hf hv =>
    subst hf
    obtain ⟨-, -, h0⟩ := h.collecting hp
    exact inv_retireReceive { inv_readLeaving h q with
      rxcnt := by simp
      seeking := nofun, collecting := nofun, crcOk := fun _ => ⟨rfl, rfl, h0, hv⟩
      crcFail := nofun, timeout := nofun, noComplete := nofun, busyReady := nofun
      snapshot := .inr h0 } nofun
  | @failed b q f he hp ht hq hn hf hv =>
    subst hf
    obtain ⟨-, -, h0⟩ := h.collecting hp
    exact inv_retireReceive { inv_drawFout (inv_readLeaving h q) with
      rxcnt := by simp
      seeking := nofun, collecting := nofun, crcOk := nofun
      crcFail := fun _ => ⟨rfl, h0, hv⟩, timeout := nofun, noComplete := nofun
      busyReady := nofun, snapshot := .inr h0 } nofun

/-- Settles O23: a case analysis of the events, with the invariant carried through each shared
operation. -/
theorem everyStepKeepsInvariant : Obligations.EveryStepKeepsInvariant :=
  fun _ _ h hst => inv_stepTo h (step_cases hst)

/-- Settles O22: the ranges by evaluation at W_T = 32, and the phase is IDLE. -/
theorem resetMeetsInvariant : Obligations.ResetMeetsInvariant where
  par := by decide
  tmo := by decide
  t0 := by decide
  t1 := by decide
  now := by decide
  rxcnt := by decide
  seeking := nofun
  collecting := nofun
  crcOk := nofun
  crcFail := nofun
  timeout := nofun
  noComplete := nofun
  busyReady := nofun
  snapshot := .inl rfl

end Sys2Proof.Machine

/-! Registers without a defined value influence nothing (R12, R19, U6): states that agree on the
defined registers answer a step alike. -/

namespace Sys2Proof.Machine

open Sys2Proof

/-! ## States that agree on the defined registers -/

/-- `s` with other values in the five registers that no port shows (R12, R19, U6).  Its other fields
are those of `s` by definition, so what guards a rule in `s` guards it here: the `by exact`s
below. -/
def State.withHidden (s : State) (txbuf : Frame) (t1 : Nat) (wshort : Bool) (rxbuf : Frame)
    (t0 : Nat) : State :=
  { s with txbuf := txbuf, t1 := t1, wshort := wshort, rxbuf := rxbuf, t0 := t0 }

/-- `t` is `s` but for the hidden registers. -/
def SameVisible (s t : State) : Prop := t = s.withHidden t.txbuf t.t1 t.wshort t.rxbuf t.t0

theorem sameDefined_withHidden {s t : State} (h : SameDefined s t) :
    ∃ txbuf t1 wshort rxbuf t0, t = s.withHidden txbuf t1 wshort rxbuf t0 :=
  ⟨_, _, _, _, _, h.visible⟩

/-! ## Which hidden registers have a value, phase by phase -/

/-- In a resting phase none has. -/
theorem sameDefined_resting {s t : State} (hv : SameVisible s t) (hb : s.busy = false) :
    SameDefined s t := by
  have hr : ¬ s.receiving = true := fun h => by simp [busy_iff.2 (.inl h)] at hb
  have hs : ¬ s.sending = true := fun h => by simp [busy_iff.2 (.inr h)] at hb
  exact ⟨hv, fun h => absurd h hs, fun h => absurd (sending_iff.2 (.inr h)) hs,
    fun h => absurd h hr, fun h => absurd h hr⟩

/-- While SEND is in progress WSHORT has, and T1 after the drain. -/
theorem sameDefined_sending {s t : State} (hv : SameVisible s t) (hs : s.sending = true)
    (hw : t.wshort = s.wshort) (ht : s.phase = .txSettle → t.t1 = s.t1) : SameDefined s t := by
  have hr : ¬ s.receiving = true := by
    rcases sending_iff.1 hs with hp | hp <;> simp [State.receiving, hp]
  exact ⟨hv, fun _ => hw, ht, fun h => absurd h hr, fun h => absurd h hr⟩

/-- While RECEIVE is in progress T0 has, and the bytes of RXBUF that it has stored. -/
theorem sameDefined_receiving {s t : State} (hv : SameVisible s t) (hr : s.receiving = true)
    (ht : t.t0 = s.t0)
    (hf : t.rxbuf.toList.take s.rxcnt.toNat = s.rxbuf.toList.take s.rxcnt.toNat) :
    SameDefined s t := by
  have hs : ¬ s.sending = true := by
    rcases receiving_iff.1 hr with hp | hp <;> simp [State.sending, hp]
  exact ⟨hv, fun h => absurd h hs, fun h => absurd (sending_iff.2 (.inr h)) hs, fun _ => ht,
    fun _ => hf⟩

/-! ## Requests -/

/-- Two answers of one kind: next states that agree on the defined registers, or one reason to
stop. -/
inductive SameAnswer : Answer → Answer → Prop where
  | next {s t : State} (h : SameDefined s t) : SameAnswer (.next s) (.next t)
  | fault (r : Fault) : SameAnswer (.fault r) (.fault r)
  | refused (r : Refusal) : SameAnswer (.refused r) (.refused r)

theorem sameAnswer_accept {s t : State} {j k : State → Answer} (hv : SameVisible s t)
    (hk : s.busy = false → SameAnswer (j s) (k t)) : SameAnswer (accept s j) (accept t k) := by
  have hbt : t.busy = s.busy := by rw [hv]; rfl
  cases hb : s.busy with
  | false =>
    rw [accept_resting hb, accept_resting (hbt.trans hb)]
    exact hk hb
  | true =>
    rw [accept_busy hb, accept_busy (hbt.trans hb)]
    exact .refused _

/-- SEND writes TXBUF and WSHORT before it reads them. -/
theorem sameAnswer_sendStart {s t : State} (c : Byte) (v : Val) (hv : SameVisible s t) :
    SameAnswer (sendStart c v s) (sendStart c v t) := by
  rw [hv]
  cases ha : s.att with
  | false =>
    rw [sendStart_rejected ha, sendStart_rejected (by exact ha)]
    exact .next (sameDefined_resting rfl rfl)
  | true =>
    rcases Nat.lt_trichotomy s.txCount.toNat 9 with hn | hn | hn
    · cases hp : s.par.shortWrite with
      | abort =>
        rw [sendStart_abort ha hn hp, sendStart_abort (by exact ha) (by exact hn) (by exact hp)]
        exact .next (sameDefined_resting rfl rfl)
      | complete =>
        rw [sendStart_complete ha hn hp,
          sendStart_complete (by exact ha) (by exact hn) (by exact hp)]
        exact .next (sameDefined_sending rfl rfl rfl nofun)
    · rw [sendStart_full ha hn, sendStart_full (by exact ha) (by exact hn)]
      exact .next (sameDefined_sending rfl rfl rfl nofun)
    · rw [sendStart_refused ha hn, sendStart_refused (by exact ha) (by exact hn)]
      exact .refused _

/-- RECEIVE writes T0 before it reads it, and begins with no byte stored. -/
theorem sameAnswer_receiveStart {s t : State} (hv : SameVisible s t) :
    SameAnswer (receiveStart s) (receiveStart t) := by
  rw [hv]
  cases ha : s.att with
  | false =>
    rw [receiveStart_rejected ha, receiveStart_rejected (by exact ha)]
    exact .next (sameDefined_resting rfl rfl)
  | true =>
    rw [receiveStart_ready ha, receiveStart_ready (by exact ha)]
    exact .next (sameDefined_receiving rfl rfl rfl rfl)

theorem sameAnswer_exec {s t : State} (i : Instr) (hv : SameVisible s t) :
    SameAnswer (exec i s) (exec i t) := by
  cases i with
  | build | checksum | verify | sealFrame | attach | setTmo | rdLast =>
    simp only [exec_build, exec_checksum, exec_verify, exec_sealFrame, exec_attach, exec_setTmo,
      exec_rdLast]
    refine sameAnswer_accept hv fun hb => .next (sameDefined_resting ?_ hb)
    rw [hv]
    exact rfl
  | send | cAbc | cRead | cZero | cSpan | cRange | cLock | cVersion =>
    exact sameAnswer_accept hv fun _ => sameAnswer_sendStart _ _ hv
  | receive => exact sameAnswer_accept hv fun _ => sameAnswer_receiveStart hv

/-! ## The operation in progress -/

theorem sameAnswer_flushStep {s t : State} (h : SameDefined s t) (hp : s.phase = .txFlush) :
    SameAnswer (flushStep s) (flushStep t) := by
  have hw := h.sendFlag (sending_iff.2 (.inl hp))
  obtain ⟨txbuf, t1, wshort, rxbuf, t0, rfl⟩ := sameDefined_withHidden h
  cases hd : s.drained with
  | false =>
    rw [flushStep_waiting hd, flushStep_waiting (by exact hd)]
    exact .next h
  | true =>
    rw [flushStep_drained hd, flushStep_drained (by exact hd)]
    exact .next (sameDefined_sending rfl rfl hw fun _ => rfl)

/-- The settle delay reads T1, and its end WSHORT. -/
theorem sameAnswer_settleStep {s t : State} (h : SameDefined s t) (hp : s.phase = .txSettle) :
    SameAnswer (settleStep s) (settleStep t) := by
  have hw := h.sendFlag (sending_iff.2 (.inr hp))
  have ht := h.settleStart hp
  obtain ⟨txbuf, t1, wshort, rxbuf, t0, rfl⟩ := sameDefined_withHidden h
  obtain rfl : t1 = s.t1 := ht
  obtain rfl : wshort = s.wshort := hw
  by_cases hs : s.settled
  · rw [settleStep_settled hs, settleStep_settled (by exact hs)]
    exact .next (sameDefined_resting rfl rfl)
  · rw [settleStep_waiting hs, settleStep_waiting (by exact hs)]
    exact .next h

theorem sameAnswer_seekByte {s t : State} (b : Byte) (h : SameDefined s t)
    (hr : s.receiving = true) : SameAnswer (seekByte b s) (seekByte b t) := by
  have ht := h.receiveStart hr
  obtain ⟨txbuf, t1, wshort, rxbuf, t0, rfl⟩ := sameDefined_withHidden h
  by_cases hb : b = Config.prefixByte
  · rw [hb, seekByte_match, seekByte_match]
    exact .next (sameDefined_receiving rfl rfl ht rfl)
  · rw [seekByte_other hb, seekByte_other hb]
    exact .next h

/-- A byte stored after equal leading bytes leaves one more equal byte. -/
theorem take_set?_congr {f f' g g' : Frame} {b : Byte} {n : Nat}
    (h : g.toList.take n = f.toList.take n) (hf : f.set? b n = some f')
    (hg : g.set? b n = some g') : g'.toList.take (n + 1) = f'.toList.take (n + 1) := by
  have hn : n < 9 := Nat.lt_succ_of_le (set?_index_le hf)
  have key (e : Frame) : (e.toList.set n b).take (n + 1) = e.toList.take n ++ [b] := by
    have he : n < e.toList.length := hn
    rw [List.take_succ_eq_append_getElem (by simpa using he), List.getElem_set_self,
      List.take_set_of_le le_rfl]
  rw [toList_set? hf, toList_set? hg, key, key, h]

/-- The verdict on a whole frame reads no hidden register but the frame. -/
theorem sameDefined_completeFrame {s t : State} (hv : SameVisible s t) (hf : t.rxbuf = s.rxbuf) :
    SameDefined (completeFrame s) (completeFrame t) := by
  rw [hv, hf]
  cases hc : verify s.rxbuf with
  | true =>
    rw [completeFrame_match hc, completeFrame_match (by exact hc)]
    exact sameDefined_resting rfl rfl
  | false =>
    rw [completeFrame_mismatch hc, completeFrame_mismatch (by exact hc)]
    exact sameDefined_resting rfl rfl

theorem sameAnswer_collectByte {s t : State} (b : Byte) (h : SameDefined s t)
    (hr : s.receiving = true) : SameAnswer (collectByte b s) (collectByte b t) := by
  have ht := h.receiveStart hr
  have hb := h.assembled hr
  obtain ⟨txbuf, t1, wshort, rxbuf, t0, rfl⟩ := sameDefined_withHidden h
  cases hf : s.rxbuf.set? b s.rxcnt.toNat with
  | none =>
    rw [collectByte_fault hf, collectByte_fault (by exact set?_none_iff.2 (set?_none_iff.1 hf))]
    exact .fault _
  | some f =>
    have hi := set?_index_le hf
    obtain ⟨g, hg⟩ := set?_isSome rxbuf b hi
    have hfg := take_set?_congr hb hf hg
    by_cases hn : s.rxcnt + 1 = 9
    · rw [collectByte_ninth hf hn, collectByte_ninth hg (by exact hn)]
      have h8 : s.rxcnt.toNat = 8 := by bv_omega
      rw [h8] at hfg
      exact .next (sameDefined_completeFrame rfl (toList_injective hfg))
    · rw [collectByte_stored hf hn, collectByte_stored hg (by exact hn)]
      have hs : (s.rxcnt + 1).toNat = s.rxcnt.toNat + 1 := by bv_omega
      refine .next (sameDefined_receiving rfl hr ht ?_)
      rw [hs]
      exact hfg

/-- A poll reads T0 only. -/
theorem sameAnswer_pollStep {s t : State} {onByte : Byte → State → Answer} (h : SameDefined s t)
    (hr : s.receiving = true)
    (hbyte : ∀ (b : Byte) (u v : State), SameDefined u v → u.receiving = true →
      SameAnswer (onByte b u) (onByte b v)) :
    SameAnswer (pollStep onByte s) (pollStep onByte t) := by
  have ht := h.receiveStart hr
  have hb := h.assembled hr
  obtain ⟨txbuf, t1, wshort, rxbuf, t0, rfl⟩ := sameDefined_withHidden h
  obtain rfl : t0 = s.t0 := ht
  by_cases hd : s.deadlineReached
  · rw [pollStep_deadline hd, pollStep_deadline (by exact hd)]
    exact .next (sameDefined_resting rfl rfl)
  cases hq : s.rxq with
  | nil =>
    rw [pollStep_empty hd hq, pollStep_empty (by exact hd) (by exact hq)]
    exact .next (sameDefined_receiving rfl hr rfl hb)
  | cons b q =>
    rw [pollStep_byte hd hq, pollStep_byte (by exact hd) (by exact hq)]
    exact hbyte b _ _ (sameDefined_receiving rfl hr rfl hb) hr

theorem sameAnswer_continueOp {s t : State} (h : SameDefined s t) :
    SameAnswer (continueOp s) (continueOp t) := by
  have hpt : t.phase = s.phase := by rw [h.visible]
  cases hp : s.phase with
  | txFlush =>
    rw [continueOp_txFlush hp, continueOp_txFlush (hpt.trans hp)]
    exact sameAnswer_flushStep h hp
  | txSettle =>
    rw [continueOp_txSettle hp, continueOp_txSettle (hpt.trans hp)]
    exact sameAnswer_settleStep h hp
  | seekingPrefix =>
    rw [continueOp_seekingPrefix hp, continueOp_seekingPrefix (hpt.trans hp)]
    exact sameAnswer_pollStep h (receiving_iff.2 (.inl hp)) fun b _ _ => sameAnswer_seekByte b
  | collecting =>
    rw [continueOp_collecting hp, continueOp_collecting (hpt.trans hp)]
    exact sameAnswer_pollStep h (receiving_iff.2 (.inr hp)) fun b _ _ => sameAnswer_collectByte b
  | idle | complete | crcOk | crcFail | timeout =>
    rw [continueOp_resting (by simp [State.busy, Phase.busy, hp]),
      continueOp_resting (by simp [State.busy, Phase.busy, hpt, hp])]
    exact .next h

/-! ## The step -/

theorem sameDefined_sampled {s t : State} (h : SameDefined s t) :
    SameDefined s.sampled t.sampled := by
  obtain ⟨txbuf, t1, wshort, rxbuf, t0, rfl⟩ := sameDefined_withHidden h
  exact { h with visible := rfl }

theorem sameAnswer_requestStep {s t : State} (word : ReqPorts) (hv : SameVisible s t) :
    SameAnswer (requestStep word s) (requestStep word t) := by
  have hp : t.par = s.par := by rw [hv]; rfl
  unfold requestStep
  rw [hp]
  cases decodeOpreq s.par.wT word with
  | ok i => exact sameAnswer_exec i hv
  | error r => exact .refused _

theorem sameAnswer_blockStep {s t : State} (e : Edge) (h : SameDefined s t) :
    SameAnswer (blockStep e s) (blockStep e t) := by
  unfold blockStep
  split
  · obtain ⟨txbuf, t1, wshort, rxbuf, t0, rfl⟩ := sameDefined_withHidden h
    exact .next (sameDefined_resting rfl rfl)
  · split
    · exact sameAnswer_requestStep _ h.visible
    · exact sameAnswer_continueOp h

theorem sameAnswer_step {s t : State} (h : SameDefined s t) : SameAnswer (step s) (step t) := by
  have he : t.edge = s.edge := by rw [h.visible]; rfl
  have hst : step t = blockStep s.edge t.sampled := by rw [← he]; rfl
  rw [hst]
  exact sameAnswer_blockStep _ (sameDefined_sampled h)

/-- Settles O51: the two answers are of one kind, and next states agree again. -/
theorem undefinedRegistersUnobservable : Obligations.UndefinedRegistersUnobservable := by
  intro s t h
  have hst := sameAnswer_step h
  revert hst
  generalize step s = a
  generalize step t = b
  intro hst
  cases hst with
  | next hst => exact ⟨fun _ hs => ⟨_, rfl, Host.Outcome.next.inj hs ▸ hst⟩, by simp, by simp⟩
  | refused r => exact ⟨by simp, fun _ hr => hr, by simp⟩
  | fault r => exact ⟨by simp, by simp, fun _ hr => hr⟩

end Sys2Proof.Machine

/-! The rules of the whole machine on the registers of R10 to R21, each by the events of a step. -/

namespace Sys2Proof.Machine

open Sys2Proof

/-- Settles O43: of the events only reset and the ninth byte write LASTRAW. -/
theorem snapshotOnlyByCompletion : Obligations.SnapshotOnlyByCompletion := by
  intro s t hst hne
  cases step_cases hst with
  | reset hr => exact .inl ⟨hr, rfl⟩
  | accepted he hp _ hq hn hf => exact .inr ⟨he.1, hp, hn, .inl rfl, _, hq, hf⟩
  | failed he hp _ hq hn hf => exact .inr ⟨he.1, hp, hn, .inr rfl, _, hq, hf⟩
  | _ => exact absurd rfl hne

/-- Settles O44: each of the four registers has one event besides reset that writes it. -/
theorem controlRegistersHaveOneWriter : Obligations.ControlRegistersHaveOneWriter := by
  intro s t hst
  have kept {α : Type} {a : α} {p : Prop} (h : a ≠ a) : p := absurd rfl h
  cases step_cases hst with
  | reset hr =>
    exact ⟨fun _ => .inl ⟨hr, rfl⟩, fun _ => .inl ⟨hr, rfl⟩, fun _ => .inl ⟨hr, rfl⟩,
      fun _ => .inl ⟨hr, rfl⟩⟩
  | attach hi => exact ⟨fun _ => .inr ⟨hi, rfl⟩, kept, kept, kept⟩
  | setTmo hi => exact ⟨kept, fun _ => .inr ⟨_, hi, rfl⟩, kept, kept⟩
  | verify hi => exact ⟨kept, kept, fun _ => .inr ⟨_, hi, rfl⟩, kept⟩
  | checksum hi => exact ⟨kept, kept, kept, fun _ => .inr ⟨_, hi, rfl⟩⟩
  | _ => exact ⟨kept, kept, kept, kept⟩

/-- Settles O47: RXCNT is cleared by two events, and each byte that is stored adds 1 to a value that
the invariants bound. -/
theorem rxcntCountsStoredBytes : Obligations.RxcntCountsStoredBytes := by
  intro s t h hst
  cases step_cases hst with
  | reset hr => exact .inr (.inl ⟨rfl, .inl hr⟩)
  | receiveStarted hi => exact .inr (.inl ⟨rfl, .inr ⟨hi, rfl⟩⟩)
  | synchronised he hp =>
    refine .inr (.inr ⟨receiving_iff.2 (.inl hp), rfl, ?_, by simp⟩)
    simp [h.seeking hp]
  | stored he hp _ _ hn =>
    have hs : (s.rxcnt + 1).toNat = s.rxcnt.toNat + 1 := by bv_omega
    exact .inr (.inr ⟨receiving_iff.2 (.inr hp), rfl, hs, hs.trans_le (by omega)⟩)
  | accepted he hp _ _ hn | failed he hp _ _ hn =>
    exact .inr (.inr ⟨receiving_iff.2 (.inr hp), rfl, by simp [hn], by simp⟩)
  | _ => exact .inl rfl

/-- Settles O48: the events that write PHASE are the rows of the table, in its order. -/
theorem phaseFollowsTheTable : Obligations.PhaseFollowsTheTable := by
  intro s t hst hne
  cases step_cases hst with
  | reset hr => exact .inl ⟨hr, rfl, rfl⟩
  | sendRejected hi hb ha =>
    exact .inr (.inl ⟨hb, ha, .inr ⟨_, _, hi⟩, rfl, rfl, rfl⟩)
  | receiveRejected hi hb ha => exact .inr (.inl ⟨hb, ha, .inl hi, rfl, rfl, rfl⟩)
  | receiveStarted hi hb ha => exact .inr (.inr (.inl ⟨hb, ha, hi, rfl, rfl⟩))
  | sendWritten hi hb ha hn =>
    exact .inr (.inr (.inr (.inl ⟨hb, ha, ⟨_, _, hi⟩, hn, rfl, rfl⟩)))
  | sendAborted hi hb ha hn hp =>
    exact .inr (.inr (.inr (.inr (.inl ⟨hb, ha, ⟨_, _, hi⟩, hn, hp, rfl, rfl, rfl⟩))))
  | timedOut he hr ht =>
    exact .inr (.inr (.inr (.inr (.inr (.inl ⟨he, hr, ht, rfl, rfl⟩)))))
  | synchronised he hp ht hq =>
    exact .inr (.inr (.inr (.inr (.inr (.inr (.inl ⟨he, hp, ht, ⟨_, hq⟩, rfl, rfl⟩))))))
  | accepted he hp ht hq hn =>
    exact .inr (.inr (.inr (.inr (.inr (.inr (.inr (.inl
      ⟨he, hp, hn, ht, by simp [hq], .inl rfl, rfl⟩)))))))
  | failed he hp ht hq hn =>
    exact .inr (.inr (.inr (.inr (.inr (.inr (.inr (.inl
      ⟨he, hp, hn, ht, by simp [hq], .inr rfl, rfl⟩)))))))
  | drained he hp hd =>
    exact .inr (.inr (.inr (.inr (.inr (.inr (.inr (.inr (.inl ⟨he, hp, hd, rfl, rfl⟩))))))))
  | settled he hp hs =>
    exact .inr (.inr (.inr (.inr (.inr (.inr (.inr (.inr (.inr ⟨he, hp, hs, rfl, rfl⟩))))))))
  | _ => exact absurd rfl hne

/-- Settles O21: the reset state as R27 and R5 give it. -/
theorem resetStateValues : Obligations.ResetStateValues :=
  ⟨rfl, rfl, rfl, rfl, rfl, rfl, rfl, rfl, rfl, rfl, rfl⟩

end Sys2Proof.Machine

/-! The ports of R26: the codes of R14 and R20, and the strobes as what the last step did. -/

namespace Sys2Proof.Machine

open Sys2Proof

/-! ## Codes -/

/-- The phase a code of R14 stands for. -/
def Phase.ofCode : BitVec 4 → Option Phase
  | 0x0 => some .idle
  | 0x1 => some .seekingPrefix
  | 0x2 => some .collecting
  | 0x3 => some .complete
  | 0x4 => some .crcOk
  | 0x5 => some .crcFail
  | 0x6 => some .timeout
  | 0x8 => some .txFlush
  | 0x9 => some .txSettle
  | _ => none

/-- The result a code of R20 stands for. -/
def ResultCode.ofCode : BitVec 3 → Option ResultCode
  | 0 => some .ok
  | 1 => some .timeoutE
  | 2 => some .crcE
  | 3 => some .invalidE
  | 4 => some .transportE
  | _ => none

theorem Phase.ofCode_code (p : Phase) : Phase.ofCode p.code = some p := by
  cases p <;> rfl

theorem ResultCode.ofCode_code (e : ResultCode) : ResultCode.ofCode e.code = some e := by
  cases e <;> rfl

theorem Phase.code_injective {p q : Phase} (h : p.code = q.code) : p = q :=
  Option.some.inj (by rw [← p.ofCode_code, h, q.ofCode_code])

theorem ResultCode.code_injective {e d : ResultCode} (h : e.code = d.code) : e = d :=
  Option.some.inj (by rw [← e.ofCode_code, h, d.ofCode_code])

/-- No phase has a code that R14 leaves out. -/
theorem Phase.code_range (p : Phase) : p.code ≠ 0x7 ∧ p.code < 0xA := by
  cases p <;> decide

theorem ResultCode.code_lt (e : ResultCode) : e.code < 5 := by
  cases e <;> decide

/-- The four busy codes (R14). -/
theorem Phase.busy_iff_code (p : Phase) :
    p.busy = true ↔ (p.code = 0x1 ∨ p.code = 0x2 ∨ p.code = 0x8 ∨ p.code = 0x9) := by
  cases p <;> decide

theorem Phase.txFlush_iff_code (p : Phase) : (p == .txFlush) = true ↔ p.code = 0x8 := by
  cases p <;> decide

/-! ## Strobes -/

/-- A step that shows `rx_read` took the head of RXQ, and one that does not took nothing (R47). -/
theorem rxRead_of_stepTo {s t : State} (hst : StepTo s t) :
    (t.out.rxRead = true → ∃ b, s.sampled.rxq = b :: t.rxq) ∧
      (t.out.rxRead = false → t.rxq = s.sampled.rxq) := by
  cases hst with
  | discarded _ _ _ hq | synchronised _ _ _ hq | stored _ _ _ hq | accepted _ _ _ hq
  | failed _ _ _ hq => exact ⟨fun _ => ⟨_, hq⟩, nofun⟩
  | _ => exact ⟨nofun, fun _ => rfl⟩

/-- The frame a step offers is that of a SEND requested with ATT = 1 (R44, R122, R123). -/
theorem txWrite_iff_of_stepTo {s t : State} (hst : StepTo s t) (f : Frame) :
    t.out.txWrite = some f ↔
      s.att = true ∧ ∃ c v, Requested s (.send c v) ∧ build c v = f := by
  cases hst with
  | reset hr => exact iff_of_false nofun fun ⟨_, _, _, h, _⟩ => by simp [h.1] at hr
  | setFout hi hrow =>
    exact iff_of_false nofun fun ⟨_, _, _, h, _⟩ => not_requested_send hi hrow _ _ h
  | checksum hi | verify hi | attach hi | setTmo hi | receiveRejected hi | receiveStarted hi =>
    exact iff_of_false nofun fun ⟨_, _, _, h, _⟩ =>
      not_requested_send hi (by simp [Instr.row]) _ _ h
  | sendRejected _ _ ha => exact iff_of_false nofun fun h => by simp [h.1] at ha
  | sendWritten hi _ ha | sendAborted hi _ ha =>
    constructor
    · intro h
      exact ⟨ha, _, _, hi, Option.some.inj h⟩
    · rintro ⟨-, c, v, h, rfl⟩
      cases requested_unique hi h
      rfl
  | waited he | drained he | settled he | timedOut he | yielded he | discarded he
  | synchronised he | stored he | accepted he | failed he =>
    exact iff_of_false nofun fun ⟨_, _, _, h, _⟩ => not_requested_of_edgeIdle he _ h

/-- A step yields exactly where it polls before the deadline and finds no byte (R132). -/
theorem yield_iff_of_stepTo {s t : State} (hst : StepTo s t) :
    t.out.yield = true ↔
      s.receiving = true ∧ EdgeIdle s.edge ∧ s.sampled.elapsedT0 < s.tmo ∧ s.sampled.rxq = [] := by
  cases hst with
  | reset hr => exact iff_of_false nofun fun ⟨_, he, _⟩ => by simp [he.1] at hr
  | setFout hi | checksum hi | verify hi | attach hi | setTmo hi | sendRejected hi
  | sendWritten hi | sendAborted hi | receiveRejected hi | receiveStarted hi =>
    exact iff_of_false nofun fun ⟨_, he, _⟩ => not_edgeIdle_of_requested hi he
  | waited _ hr => exact iff_of_false nofun fun h => by simp [h.1] at hr
  | drained _ hp | settled _ hp =>
    exact iff_of_false nofun fun h => by simp [State.receiving, hp] at h
  | timedOut _ _ ht => exact iff_of_false nofun fun ⟨_, _, h, _⟩ => absurd ht h.not_ge
  | yielded he hr ht hq => exact iff_of_true rfl ⟨hr, he, ht, hq⟩
  | discarded _ _ _ hq | synchronised _ _ _ hq | stored _ _ _ hq | accepted _ _ _ hq
  | failed _ _ _ hq => exact iff_of_false nofun fun ⟨_, _, _, h⟩ => by simp [h] at hq

/-- `tx_write` shows that a frame was offered. -/
theorem txWrite_port_iff {s t : State} (hst : StepTo s t) :
    t.outPorts.txWrite = true ↔ s.att = true ∧ ∃ c v, Requested s (.send c v) := by
  have h : t.outPorts.txWrite = true ↔ ∃ f, t.out.txWrite = some f := Option.isSome_iff_exists
  simp only [h, txWrite_iff_of_stepTo hst]
  constructor
  · rintro ⟨_, ha, c, v, hi, -⟩
    exact ⟨ha, c, v, hi⟩
  · rintro ⟨ha, c, v, hi⟩
    exact ⟨_, ha, c, v, hi, rfl⟩

/-- `tx_frame` shows the frame of the operands. -/
theorem txFrame_port {s t : State} (hst : StepTo s t) {c : Byte} {v : Val} (ha : s.att = true)
    (hi : Requested s (.send c v)) : t.outPorts.txFrame = some (build c v).bits := by
  have h : t.out.txWrite = some (build c v) := (txWrite_iff_of_stepTo hst _).2 ⟨ha, c, v, hi, rfl⟩
  exact congrArg (Option.map Frame.bits) h

theorem txFrame_port_none {t : State} (h : t.outPorts.txWrite = false) :
    t.outPorts.txFrame = none := by
  have hn : t.out.txWrite = none := Option.not_isSome_iff_eq_none.1 (Bool.eq_false_iff.1 h)
  exact congrArg (Option.map Frame.bits) hn

/-- Settles O56: the codes are decoded again by `ofCode`, and the strobes follow the events of the
step. -/
theorem portCodesTellStatesApart : Obligations.PortCodesTellStatesApart := by
  refine ⟨by decide, by decide, fun _ _ => Phase.code_injective, Phase.code_range,
    fun _ _ => ResultCode.code_injective, bits_toNat, fun s => ?_, fun s t h => ?_⟩
  · exact ⟨rfl, rfl, s.err.code_lt, rfl, rfl, rfl, rfl, rfl, rfl, s.phase.busy_iff_code,
      s.phase.txFlush_iff_code⟩
  · have hst := step_cases h
    obtain ⟨hread, hkept⟩ := rxRead_of_stepTo hst
    exact ⟨hread, hkept, txWrite_port_iff hst, fun _ _ => txFrame_port hst, txFrame_port_none,
      yield_iff_of_stepTo hst⟩

/-! ## The surrounding software -/

theorem rangeAccepted_iff (range : Int) :
    rangeAccepted range = true ↔ range = 2000 ∨ range = 5000 := by
  simp [rangeAccepted]

/-- The class of a response by the larger of its two candidate bytes (R182). -/
theorem classifyVariant_cases (f : Frame) :
    (0x30 ≤ vdisc f ∧ classifyVariant (.ok f) = .d) ∨
    (0x14 ≤ vdisc f ∧ vdisc f < 0x30 ∧ classifyVariant (.ok f) = .c) ∨
    (vdisc f < 0x14 ∧ classifyVariant (.ok f) = .b) := by
  unfold classifyVariant
  by_cases hd : 0x30 ≤ vdisc f
  · exact .inl ⟨hd, if_pos hd⟩
  by_cases hc : 0x14 ≤ vdisc f
  · exact .inr (.inl ⟨hc, by omega, (if_neg hd).trans (if_pos hc)⟩)
  · exact .inr (.inr ⟨by omega, (if_neg hd).trans (if_neg hc)⟩)

theorem classifyVariant_d_iff (f : Frame) :
    classifyVariant (.ok f) = .d ↔ 0x30 ≤ f.b2.toNat ∨ 0x30 ≤ f.b3.toNat := by
  rw [← le_max_iff]
  change _ ↔ 0x30 ≤ vdisc f
  obtain ⟨h, hc⟩ | ⟨-, h, hc⟩ | ⟨h, hc⟩ := classifyVariant_cases f <;> simp [hc] <;> omega

theorem classifyVariant_b_iff (f : Frame) :
    classifyVariant (.ok f) = .b ↔ f.b2.toNat < 0x14 ∧ f.b3.toNat < 0x14 := by
  rw [← max_lt_iff]
  change _ ↔ vdisc f < 0x14
  obtain ⟨h, hc⟩ | ⟨h, -, hc⟩ | ⟨h, hc⟩ := classifyVariant_cases f <;> simp [hc] <;> omega

theorem classifyVariant_ok_ne_unknown (f : Frame) : classifyVariant (.ok f) ≠ .unknown := by
  obtain ⟨-, hc⟩ | ⟨-, -, hc⟩ | ⟨-, hc⟩ := classifyVariant_cases f <;> simp [hc]

/-- A range that is neither 2000 nor 5000 issues no request (R188). -/
theorem setRange_rejected {range : Int} (h : range ≠ 2000 ∧ range ≠ 5000)
    (r : Except ResultCode Frame) (w : Software) :
    (PseudoOp.setRange range).requests = [] ∧
      (PseudoOp.setRange range).finish r w = (.failed .invalidE, w) := by
  have hn : ¬ rangeAccepted range = true := by
    rw [rangeAccepted_iff]
    exact not_or.2 h
  exact ⟨if_neg hn, if_neg hn⟩

/-- Settles O58: the thresholds by the larger of bytes 2 and 3, the range by its check. -/
theorem softwareClassifiesAndValidates : Obligations.SoftwareClassifiesAndValidates :=
  ⟨fun window _ _ => ⟨rfl, le_max_right window 1⟩,
    fun f => ⟨classifyVariant_d_iff f, classifyVariant_b_iff f, classifyVariant_ok_ne_unknown f⟩,
    fun _ => rfl,
    fun range r w => ⟨fun h => setRange_rejected h r w,
      fun h => if_pos ((rangeAccepted_iff range).2 h)⟩⟩

end Sys2Proof.Machine

/-! The memory rules of spec/20_memory.md: frame indices, time, and what one step does to TXLOG and
RXQ. -/

namespace Sys2Proof.Machine

open Sys2Proof

/-! ## Where a fault comes from -/

theorem receiveStart_not_fault (s : State) (r : Fault) : receiveStart s ≠ .fault r := by
  unfold receiveStart
  split <;> nofun

/-- No request faults: an instruction answers a next state or is refused (R82, R208). -/
theorem exec_not_fault (i : Instr) (s : State) (r : Fault) : exec i s ≠ .fault r := by
  cases i with
  | build | checksum | verify | sealFrame | attach | setTmo | rdLast =>
    simp only [exec_build, exec_checksum, exec_verify, exec_sealFrame, exec_attach, exec_setTmo,
      exec_rdLast]
    exact accept_not_fault nofun
  | receive => exact accept_not_fault (receiveStart_not_fault _ _)
  | send | cAbc | cRead | cZero | cSpan | cRange | cLock | cVersion =>
    exact accept_not_fault (sendStart_not_fault _ _ _ _)

theorem flushStep_not_fault (s : State) (r : Fault) : flushStep s ≠ .fault r := by
  unfold flushStep
  split <;> nofun

theorem settleStep_not_fault (s : State) (r : Fault) : settleStep s ≠ .fault r := by
  unfold settleStep
  split <;> nofun

theorem seekByte_not_fault (b : Byte) (s : State) (r : Fault) : seekByte b s ≠ .fault r := by
  unfold seekByte
  split <;> nofun

/-- A byte finds no place only where RXCNT is above the frame indices (R41). -/
theorem rxcnt_of_collectByte_fault {b : Byte} {s : State} {r : Fault}
    (h : collectByte b s = .fault r) : 8 < s.rxcnt.toNat := by
  cases hf : s.rxbuf.set? b s.rxcnt.toNat with
  | none => exact set?_none_iff.1 hf
  | some f =>
    by_cases hn : s.rxcnt + 1 = 9
    · exact absurd ((collectByte_ninth hf hn).symm.trans h) nofun
    · exact absurd ((collectByte_stored hf hn).symm.trans h) nofun

/-- A poll step faults only in the rule for the byte it has read (R133). -/
theorem onByte_of_pollStep_fault {onByte : Byte → State → Answer} {s : State} {r : Fault}
    (h : pollStep onByte s = .fault r) :
    ∃ b q, onByte b { s with rxq := q, out := { s.out with rxRead := true } } = .fault r := by
  by_cases hd : s.deadlineReached
  · exact absurd ((pollStep_deadline hd).symm.trans h) nofun
  cases hq : s.rxq with
  | nil => exact absurd ((pollStep_empty hd hq).symm.trans h) nofun
  | cons b q => exact ⟨b, q, (pollStep_byte hd hq).symm.trans h⟩

theorem collecting_of_continueOp_fault {s : State} {r : Fault} (h : continueOp s = .fault r) :
    s.phase = .collecting ∧ 8 < s.rxcnt.toNat := by
  cases hp : s.phase with
  | txFlush => exact absurd ((continueOp_txFlush hp).symm.trans h) (flushStep_not_fault s r)
  | txSettle => exact absurd ((continueOp_txSettle hp).symm.trans h) (settleStep_not_fault s r)
  | seekingPrefix =>
    obtain ⟨b, q, hb⟩ := onByte_of_pollStep_fault ((continueOp_seekingPrefix hp).symm.trans h)
    exact absurd hb (seekByte_not_fault _ _ r)
  | collecting =>
    obtain ⟨b, q, hb⟩ := onByte_of_pollStep_fault ((continueOp_collecting hp).symm.trans h)
    have hn := rxcnt_of_collectByte_fault hb
    exact ⟨rfl, hn⟩
  | idle | complete | crcOk | crcFail | timeout =>
    have hb : s.busy = false := by simp [State.busy, Phase.busy, hp]
    exact absurd ((continueOp_resting hb).symm.trans h) nofun

/-- The machine faults in one place only: while collecting, at an index outside the FRAME space
(R41). -/
theorem collecting_of_step_fault {s : State} {r : Fault} (h : step s = .fault r) :
    s.phase = .collecting ∧ 8 < s.rxcnt.toNat := by
  replace h : blockStep s.edge s.sampled = .fault r := h
  unfold blockStep requestStep at h
  split_ifs at h
  · split at h
    · exact absurd h (exec_not_fault _ _ r)
    · exact absurd h nofun
  · exact collecting_of_continueOp_fault (s := s.sampled) h

/-- Settles O24: the only fault needs RXCNT above 8 while collecting, which R28 item 2 excludes. -/
theorem soundStatesNeverFault : Obligations.SoundStatesNeverFault := by
  intro s r hs h
  obtain ⟨hp, hn⟩ := collecting_of_step_fault h
  obtain ⟨-, hle, -⟩ := hs.collecting hp
  exact absurd hn hle.not_gt

/-! ## Time -/

/-- Settles O42: time that passes adds up modulo 2^W_T, and `d` is below it. -/
theorem elapsedIsTrueTime : Obligations.ElapsedIsTrueTime := by
  intro w t d _ hd
  rw [elapsed_advance, elapsed_self, Nat.zero_add, Nat.mod_eq_of_lt hd]

/-! ## The streams -/

/-- A frame has nine bytes, so no write transfers more (R44). -/
theorem acceptedBytes_eq_take_min (f : Frame) (n : Nat) :
    acceptedBytes f n = f.toList.take (min n 9) :=
  List.take_eq_take_min

/-- Settles O45: of the events only the two in which a SEND writes touch TXLOG. -/
theorem txlogGrowsByCommandFrames : Obligations.TxlogGrowsByCommandFrames := by
  intro s t hst
  cases step_cases hst with
  | @sendWritten c v n _ hi hb ha | @sendAborted c v n hi hb ha =>
    obtain ⟨hr, hq, -⟩ := hi
    exact ⟨c, v, min n 9, min_le_right n 9,
      congrArg (s.txlog ++ ·) (acceptedBytes_eq_take_min (build c v) n),
      fun _ => ⟨ha, hb, hr, hq, rfl⟩⟩
  | _ => exact ⟨0, 0, 0, Nat.zero_le 9, (List.append_nil _).symm, absurd rfl⟩

/-- Settles O46: of the events only those in which a poll has read a byte take one from RXQ. -/
theorem rxqLosesAtMostItsHead : Obligations.RxqLosesAtMostItsHead := by
  intro s t hst
  cases step_cases hst with
  | discarded he hp ht hq | synchronised he hp ht hq =>
    exact .inr ⟨receiving_iff.2 (.inl hp), he, ht, rfl, _, hq⟩
  | stored he hp ht hq | accepted he hp ht hq | failed he hp ht hq =>
    exact .inr ⟨receiving_iff.2 (.inr hp), he, ht, rfl, _, hq⟩
  | _ => exact .inl rfl

/-! ## A write count outside the contract -/

/-- Settles O31: an accepted SEND in mode Ready ends at the answer to its write. -/
theorem writeCountAboveNineRefused : Obligations.WriteCountAboveNineRefused := by
  intro c v s hb ha hn
  rw [exec_send, accept_resting hb, sendStart_refused ha hn]

end Sys2Proof.Machine

/-! Encoding (spec/30_encoding.md): the frames that `build` makes, the two decoders, each by what it
reads from which word, and the step as the one that carries out what the OPREQ decoder reads. -/

namespace Sys2Proof.Machine

open Sys2Proof

/-! ## The command frames (R71, R76) -/

/-- The code and the payload can be read off the frame (R73). -/
theorem build_injective {c d : Byte} {v x : Val} (h : build c v = build d x) : c = d ∧ v = x := by
  have hc : (build c v).b2 = (build d x).b2 := congrArg Frame.b2 h
  have hv : (build c v).val = (build d x).val := congrArg Frame.val h
  simpa using And.intro hc hv

theorem commandShape_iff {f : Frame} :
    commandShape f = true ↔
      f.b0 = Config.prefixByte ∧ f.b1 = Config.addrByte ∧ f.b5 = 0 ∧ f.b6 = 0 ∧ f.b7 = 0 := by
  simp [commandShape, and_assoc]

theorem commandShape_build (c : Byte) (v : Val) : commandShape (build c v) = true :=
  commandShape_iff.2 ⟨rfl, rfl, rfl, rfl, rfl⟩

theorem verify_build (c : Byte) (v : Val) : verify (build c v) = true := verify_eq_true.2 rfl

/-- The constant bytes and the checksum leave free what `build` is given (R71). -/
theorem eq_build_of_commandShape {f : Frame} (hs : commandShape f = true) (hv : verify f = true) :
    f = build f.b2 f.val := by
  obtain ⟨h0, h1, h5, h6, h7⟩ := commandShape_iff.1 hs
  have h3 : valHi f.val = f.b3 := valHi_append f.b3 f.b4
  have h4 : valLo f.val = f.b4 := valLo_append f.b3 f.b4
  have h8 : f.b8 = (build f.b2 f.val).b8 :=
    (verify_eq_true.1 hv).symm.trans (csum_congr h1 rfl h3.symm h4.symm h5 h6 h7)
  exact toList_injective (by simp [Frame.toList, h0, h1, h3, h4, h5, h6, h7, ← h8])

theorem commandShape_verify_iff {f : Frame} :
    (commandShape f = true ∧ verify f = true) ↔ ∃ c v, f = build c v := by
  constructor
  · rintro ⟨hs, hv⟩
    exact ⟨_, _, eq_build_of_commandShape hs hv⟩
  · rintro ⟨c, v, rfl⟩
    exact ⟨commandShape_build c v, verify_build c v⟩

theorem and_keptByte (b : Byte) : b &&& 0xFF = b := BitVec.and_allOnes

/-- The match of R71 asks for the constant bytes and nothing else. -/
theorem bits_commandShape_iff {f : Frame} :
    f.bits &&& 0xFFFF000000FFFFFF00 = 0xFF0100000000000000 ↔ commandShape f = true := by
  have hm : Frame.ofBits 0xFFFF000000FFFFFF00 = ⟨0xFF, 0xFF, 0, 0, 0, 0xFF, 0xFF, 0xFF, 0⟩ := by
    decide
  have hp : Frame.ofBits 0xFF0100000000000000 = ⟨0xFF, 0x01, 0, 0, 0, 0, 0, 0, 0⟩ := by decide
  rw [bits_and_eq, hm, hp, commandShape_iff]
  simp only [and_keptByte]
  simp [Config.prefixByte, Config.addrByte]

/-- The mask of R76 keeps byte 2, the code. -/
theorem b2_of_bits_rowMask {f : Frame} {p : BitVec 72} (h : f.bits &&& 0xFFFFFF0000FFFFFF00 = p) :
    f.b2 = (Frame.ofBits p).b2 :=
  (and_keptByte f.b2).symm.trans (congrArg Frame.b2 (bits_and_eq.1 h))

/-- Settles O10: the match of R71 asks for the constant bytes, and with its checksum such a frame is
built from its own code and payload. -/
theorem commandFramesCharacterised : Obligations.CommandFramesCharacterised := by
  refine ⟨fun f => ?_, fun _ _ _ _ => build_injective⟩
  rw [bits_commandShape_iff, eq_comm (a := f.b8), ← verify_eq_true, commandShape_verify_iff]

/-! ## The classifier of R86 -/

/-- The codes of R77 are those of the seven rows, each with the frame `build` makes. -/
theorem commandRow_eq_some_iff {c : Byte} {v : Val} {i : Instr} :
    commandRow c v = some i ↔ encode i = .frame9 (build c v) := by
  constructor
  · intro h
    unfold commandRow at h
    split_ifs at h with h1 h2 h3 h4 h5 h6 h7 <;> (subst c; cases h; rfl)
  · intro h
    cases i with
    | build | checksum | verify | sealFrame | send | receive | attach | setTmo | rdLast =>
      exact absurd h nofun
    | cAbc | cRead | cZero | cSpan | cRange | cLock | cVersion =>
      obtain ⟨rfl, rfl⟩ := build_injective (TableWord.frame9.inj h)
      rfl

theorem decodeFrame9_eq_ok_iff {f : Frame} {i : Instr} :
    decodeFrame9 f = .ok i ↔
      (commandShape f = true ∧ verify f = true) ∧ commandRow f.b2 f.val = some i := by
  cases hs : commandShape f with
  | false => simp [decodeFrame9, hs]
  | true =>
    cases hv : verify f with
    | false => simp [decodeFrame9, hs, hv]
    | true => cases hr : commandRow f.b2 f.val <;> simp [decodeFrame9, hs, hv, hr]

theorem decode_frame9_eq_ok_iff {w : Nat} {f : Frame} {i : Instr} :
    decode w (.frame9 f) = .ok i ↔ decodeFrame9 f = .ok i := by
  cases h : decodeFrame9 f <;> simp [decode, h]

/-- An encoded frame is that of a code and a payload. -/
theorem encode_frame9 {i : Instr} {f : Frame} (h : encode i = .frame9 f) :
    ∃ c v, f = build c v := by
  cases i with
  | build | checksum | verify | sealFrame | send | receive | attach | setTmo | rdLast =>
    exact absurd h nofun
  | cAbc v | cRead v | cZero v | cSpan v | cRange v | cLock v | cVersion v =>
    exact ⟨_, v, (TableWord.frame9.inj h).symm⟩

/-- The classifier reads a frame as the instruction whose word it is, and as no other. -/
theorem decodeFrame9_iff_encode {f : Frame} {i : Instr} :
    decodeFrame9 f = .ok i ↔ encode i = .frame9 f := by
  rw [decodeFrame9_eq_ok_iff, commandRow_eq_some_iff]
  constructor
  · rintro ⟨⟨hs, hv⟩, h⟩
    rwa [← eq_build_of_commandShape hs hv] at h
  · intro h
    obtain ⟨c, v, rfl⟩ := encode_frame9 h
    exact ⟨commandShape_verify_iff.2 ⟨c, v, rfl⟩, by simpa using h⟩

/-- Settles O13: the classifier checks what makes a frame a built one, and then names the row. -/
theorem frameHasOneReading : Obligations.FrameHasOneReading :=
  fun _ _ _ => decode_frame9_eq_ok_iff.trans decodeFrame9_iff_encode

/-! ## The OPREQ decoder -/

/-- `ReadsOp w p i`: the request inputs `p` show the selector of an operation and, where it lists
them, its operands (R80); a `tin` fits its W_T wires (R26). -/
inductive ReadsOp (w : Nat) (p : ReqPorts) : Instr → Prop where
  | build (h : p.op = 0x1) : ReadsOp w p (.build p.cmd p.val)
  | checksum (h : p.op = 0x2) : ReadsOp w p (.checksum p.fin)
  | verify (h : p.op = 0x3) : ReadsOp w p (.verify p.fin)
  | sealFrame (h : p.op = 0x4) : ReadsOp w p (.sealFrame p.fin)
  | send (h : p.op = 0x5) : ReadsOp w p (.send p.cmd p.val)
  | receive (h : p.op = 0x6) : ReadsOp w p .receive
  | attach (h : p.op = 0x7) : ReadsOp w p .attach
  | setTmo (h : p.op = 0x8) (hw : p.tin < 2 ^ w) : ReadsOp w p (.setTmo p.tin)
  | rdLast (h : p.op = 0x9) : ReadsOp w p .rdLast

theorem decodeOpreq_iff {w : Nat} {p : ReqPorts} {i : Instr} :
    decodeOpreq w p = .ok i ↔ ReadsOp w p i := by
  constructor
  · intro h
    unfold decodeOpreq at h
    split_ifs at h with h1 h2 h3 h4 h5 h6 h7 h8 hw h9 <;> cases h
    · exact .build h1
    · exact .checksum h2
    · exact .verify h3
    · exact .sealFrame h4
    · exact .send h5
    · exact .receive h6
    · exact .attach h7
    · exact .setTmo h8 hw
    · exact .rdLast h9
  · rintro (h | h | h | h | h | h | h | ⟨h, hw⟩ | h) <;> simp [decodeOpreq, *]

/-- The selectors R83 reserves. -/
theorem decodeOpreq_reserved (w : Nat) {p : ReqPorts} (h : p.op = 0x0 ∨ 0xA ≤ p.op) :
    decodeOpreq w p = .error (.reservedOp p.op) := by
  have hne : ∀ c : BitVec 4, 0x1 ≤ c → c ≤ 0x9 → p.op ≠ c := by bv_omega
  simp [decodeOpreq, hne]

theorem decode_opreq_eq_ok_iff {w : Nat} {p : ReqPorts} {i : Instr} :
    decode w (.opreq p) = .ok i ↔ ReadsOp w p i := by
  rw [← decodeOpreq_iff]
  cases h : decodeOpreq w p <;> simp [decode, h]

/-! ## Encoding and decoding -/

/-- Settles O11: the request of an operation shows what its row lists, and the word of a command
frame has one reading. -/
theorem decodeOfEncode : Obligations.DecodeOfEncode := by
  intro w i hw
  cases i with
  | build => exact decode_opreq_eq_ok_iff.2 (.build rfl)
  | checksum => exact decode_opreq_eq_ok_iff.2 (.checksum rfl)
  | verify => exact decode_opreq_eq_ok_iff.2 (.verify rfl)
  | sealFrame => exact decode_opreq_eq_ok_iff.2 (.sealFrame rfl)
  | send => exact decode_opreq_eq_ok_iff.2 (.send rfl)
  | receive => exact decode_opreq_eq_ok_iff.2 (.receive rfl)
  | attach => exact decode_opreq_eq_ok_iff.2 (.attach rfl)
  | setTmo => exact decode_opreq_eq_ok_iff.2 (.setTmo rfl (of_decide_eq_true hw))
  | rdLast => exact decode_opreq_eq_ok_iff.2 (.rdLast rfl)
  | cAbc | cRead | cZero | cSpan | cRange | cLock | cVersion =>
    exact (frameHasOneReading w _ _).2 rfl

/-- Every encoded word shows the fixed bits of its row (R76, R80). -/
theorem fits_encode (i : Instr) : (rowPattern i).fits (encode i) = true := by
  cases i with
  | build | checksum | verify | sealFrame | send | receive | attach | setTmo | rdLast => rfl
  | cAbc v => exact Laws.ShowsRow.cAbc v
  | cRead v => exact Laws.ShowsRow.cRead v
  | cZero v => exact Laws.ShowsRow.cZero v
  | cSpan v => exact Laws.ShowsRow.cSpan v
  | cRange v => exact Laws.ShowsRow.cRange v
  | cLock v => exact Laws.ShowsRow.cLock v
  | cVersion v => exact Laws.ShowsRow.cVersion v

/-- The one width that a type does not fix is that of SETTMO's operand (R26, R77). -/
theorem wf_of_encode_frame9 (w : Nat) {i : Instr} {f : Frame} (h : encode i = .frame9 f) :
    i.wf w = true := by
  cases i with
  | setTmo => exact absurd h nofun
  | _ => rfl

theorem wf_of_readsOp {w : Nat} {p : ReqPorts} {i : Instr} (h : ReadsOp w p i) :
    i.wf w = true := by
  cases h with
  | setTmo _ hw => exact decide_eq_true hw
  | _ => rfl

theorem fits_of_readsOp {w : Nat} {p : ReqPorts} {i : Instr} (h : ReadsOp w p i) :
    (rowPattern i).fits (.opreq p) = true := by
  cases h with
  | _ h => exact beq_iff_eq.2 h

/-- Settles O12: a request by the operation it shows, a frame as the word of its one reading. -/
theorem decodedShowsItsRow : Obligations.DecodedShowsItsRow := by
  intro w x i h
  cases x with
  | opreq p =>
    have hp := decode_opreq_eq_ok_iff.1 h
    exact ⟨wf_of_readsOp hp, fits_of_readsOp hp⟩
  | frame9 f =>
    have hf := (frameHasOneReading w f i).1 h
    exact ⟨wf_of_encode_frame9 w hf, hf ▸ fits_encode i⟩

/-! ## The rows of the table -/

/-- A request that shows a row's selector is read, once its `tin` fits, as that row. -/
theorem readsOp_of_fits {i : Instr} {p : ReqPorts} (w : Nat)
    (h : (rowPattern i).fits (.opreq p) = true) :
    ∃ j, ReadsOp w { p with tin := 0 } j ∧ j.row = i.row := by
  cases i with
  | build => exact ⟨_, .build (beq_iff_eq.1 h), rfl⟩
  | checksum => exact ⟨_, .checksum (beq_iff_eq.1 h), rfl⟩
  | verify => exact ⟨_, .verify (beq_iff_eq.1 h), rfl⟩
  | sealFrame => exact ⟨_, .sealFrame (beq_iff_eq.1 h), rfl⟩
  | send => exact ⟨_, .send (beq_iff_eq.1 h), rfl⟩
  | receive => exact ⟨_, .receive (beq_iff_eq.1 h), rfl⟩
  | attach => exact ⟨_, .attach (beq_iff_eq.1 h), rfl⟩
  | setTmo => exact ⟨_, .setTmo (beq_iff_eq.1 h) (Nat.two_pow_pos w), rfl⟩
  | rdLast => exact ⟨_, .rdLast (beq_iff_eq.1 h), rfl⟩
  | cAbc | cRead | cZero | cSpan | cRange | cLock | cVersion => exact absurd h nofun

/-- A frame that shows a row's fixed bits has the code of that row in byte 2. -/
theorem commandRow_of_fits {i : Instr} {f : Frame} (v : Val)
    (h : (rowPattern i).fits (.frame9 f) = true) :
    (commandRow f.b2 v).map Instr.row = some i.row := by
  cases i with
  | build | checksum | verify | sealFrame | send | receive | attach | setTmo | rdLast =>
    exact absurd h nofun
  | cAbc | cRead | cZero | cSpan | cRange | cLock | cVersion =>
    rw [b2_of_bits_rowMask (beq_iff_eq.1 h)]
    rfl

/-- Settles O15: each decoder is a function of the word, and a word that shows the fixed bits of a
row is given that row. -/
theorem rowsNeverOverlap : Obligations.RowsNeverOverlap := by
  intro i j x hi hj
  cases x with
  | opreq p =>
    obtain ⟨a, ha, hai⟩ := readsOp_of_fits 0 hi
    obtain ⟨b, hb, hbj⟩ := readsOp_of_fits 0 hj
    have hab : a = b := Except.ok.inj ((decodeOpreq_iff.2 ha).symm.trans (decodeOpreq_iff.2 hb))
    rw [← hai, ← hbj, hab]
  | frame9 f =>
    exact Option.some.inj ((commandRow_of_fits 0 hi).symm.trans (commandRow_of_fits 0 hj))

/-- Settles O14: in each branch of the decoder only operands that its row lists are read. -/
theorem unlistedOperandsIgnored : Obligations.UnlistedOperandsIgnored := by
  intro w p q hop hcv hfin htin
  have h : decodeOpreq w p = decodeOpreq w q := by
    unfold decodeOpreq
    rw [← hop]
    split_ifs with h1 h2 h3 h4 h5 h6 h7 h8 hp hq hq h9
    · rw [(hcv (.inl h1)).1, (hcv (.inl h1)).2]
    · rw [hfin (.inl h2)]
    · rw [hfin (.inr (.inl h3))]
    · rw [hfin (.inr (.inr h4))]
    · rw [(hcv (.inr h5)).1, (hcv (.inr h5)).2]
    · rfl
    · rfl
    · rw [htin h8]
    · exact absurd (htin h8 ▸ hp) hq
    · exact absurd (htin h8 ▸ hq) hp
    · rfl
    · rfl
    · rfl
  simp only [decode, h]

/-- Settles O16: the decoder evaluated at the five words. -/
theorem specWordsDecode : Obligations.SpecWordsDecode := by
  refine ⟨?_, ?_, ?_, ?_, ?_⟩ <;> decide

/-! ## The step as the one that carries out requests (R82, R83) -/

theorem step_request {s : State} (hr : s.edge.rst = false) (hq : s.edge.req = true) :
    step s = requestStep s.edge.word s.sampled := by
  change blockStep s.edge s.sampled = _
  simp [blockStep, hr, hq]

theorem requestStep_of_ok {p : ReqPorts} {i : Instr} {s : State}
    (h : decodeOpreq s.par.wT p = .ok i) : requestStep p s = exec i s := by
  simp [requestStep, h]

theorem requestStep_of_error {p : ReqPorts} {r : OpreqReject} {s : State}
    (h : decodeOpreq s.par.wT p = .error r) : requestStep p s = .refused (refusalOf r) := by
  simp [requestStep, h]

theorem step_of_requested {s : State} {i : Instr} (h : Requested s i) :
    step s = exec i s.sampled := by
  obtain ⟨hr, hq, hi⟩ := h
  exact (step_request hr hq).trans (requestStep_of_ok hi)

/-- Settles O17: the decoder names the reserved selector, and the step passes it on. -/
theorem reservedSelectorsRefused : Obligations.ReservedSelectorsRefused := by
  rintro s p hr hq rfl hop
  exact (step_request hr hq).trans (requestStep_of_error (decodeOpreq_reserved _ hop))

/-- The request made for an instruction is read as it, or for a command frame as the SEND that has
the same meaning in every state (R160; log 2). -/
theorem decodeOpreq_requestOf {w : Nat} {i : Instr} (hw : i.wf w = true) :
    ∃ j, decodeOpreq w (requestOf i) = .ok j ∧ ∀ s, exec j s = exec i s := by
  cases i with
  | setTmo => exact ⟨_, decodeOpreq_iff.2 (.setTmo rfl (of_decide_eq_true hw)), fun _ => rfl⟩
  | _ => exact ⟨_, rfl, fun _ => rfl⟩

/-- A step that shows the request of a well-formed instruction runs it. -/
theorem step_of_requestOf {s : State} {i : Instr} (hr : s.edge.rst = false)
    (hq : s.edge.req = true) (hw : i.wf s.par.wT = true) (h : s.edge.word = requestOf i) :
    step s = exec i s.sampled := by
  obtain ⟨j, hj, hexec⟩ := decodeOpreq_requestOf hw
  rw [← hexec]
  exact step_of_requested ⟨hr, hq, h ▸ hj⟩

/-- A word of the table that decodes is requested as it stands, or, if it is a frame, as the
instruction that the classifier reads from it. -/
theorem tableRequest_of_decodeTableWord {nbits w : Nat} {i : Instr}
    (h : decodeTableWord nbits w = some i) :
    decodeOpreq Params.spec.wT (tableRequest nbits w) = .ok i ∨
      (i.wf Params.spec.wT = true ∧ tableRequest nbits w = requestOf i) := by
  unfold decodeTableWord at h
  unfold tableRequest
  cases ht : tableWord nbits w with
  | none => simp [ht] at h
  | some x =>
    cases hx : decode Params.spec.wT x with
    | error r => simp [ht, hx] at h
    | ok j =>
      obtain rfl : j = i := by simpa [ht, hx] using h
      cases x with
      | opreq p => exact .inl (decodeOpreq_iff.2 (decode_opreq_eq_ok_iff.1 hx))
      | frame9 f =>
        refine .inr ⟨(decodedShowsItsRow _ _ _ hx).1, ?_⟩
        simp only [decode_frame9_eq_ok_iff.1 hx]

/-- Settles O18: the OPREQ decoder reads the instruction, or a SEND with its meaning, from what the
step shows. -/
theorem stepRunsDecodedInstruction : Obligations.StepRunsDecodedInstruction := by
  refine ⟨fun s i hr hq hi => step_of_requested ⟨hr, hq, hi⟩,
    fun s i hr hq hw h => step_of_requestOf hr hq hw h, fun s nbits w i hT h => ?_, fun _ => rfl⟩
  have hT' : (s.withFetchWord nbits w).par.wT = Params.spec.wT := hT
  rcases tableRequest_of_decodeTableWord h with hi | ⟨hw, hword⟩
  · exact step_of_requested ⟨rfl, rfl, hT'.symm ▸ hi⟩
  · exact step_of_requestOf rfl rfl (hT'.symm ▸ hw) hword

/-- Every instruction asks for acceptance, and then works in one step or starts SEND or RECEIVE
(R82, R160). -/
theorem exec_eq_accept (i : Instr) :
    (∃ f : State → State, ∀ s, exec i s = accept s fun s => .next (f s)) ∨
    (∃ c v, ∀ s, exec i s = accept s (sendStart c v)) ∨
    ∀ s, exec i s = accept s receiveStart := by
  cases i with
  | build c v => exact .inl ⟨_, exec_build c v⟩
  | checksum f => exact .inl ⟨_, exec_checksum f⟩
  | verify f => exact .inl ⟨_, exec_verify f⟩
  | sealFrame f => exact .inl ⟨_, exec_sealFrame f⟩
  | attach => exact .inl ⟨_, exec_attach⟩
  | setTmo tin => exact .inl ⟨_, exec_setTmo tin⟩
  | rdLast => exact .inl ⟨_, exec_rdLast⟩
  | receive => exact .inr (.inr exec_receive)
  | send | cAbc | cRead | cZero | cSpan | cRange | cLock | cVersion =>
    exact .inr (.inl ⟨_, _, fun _ => rfl⟩)

theorem exec_busy (i : Instr) {s : State} (h : s.busy = true) :
    exec i s = .refused .requestWhileBusy := by
  obtain ⟨f, hi⟩ | ⟨c, v, hi⟩ | hi := exec_eq_accept i <;> exact (hi s).trans (accept_busy h _)

/-- Settles O19: every instruction asks for acceptance first, and the request inputs are looked at
where `req = 1` only. -/
theorem requestAcceptance : Obligations.RequestAcceptance := by
  refine ⟨fun i s => exec_busy i, fun s he hb => ?_, fun s he _ => step_idle he,
    fun s e word he => ?_⟩
  · rw [step_idle he]
    exact continueOp_resting hb
  · change blockStep e (s.withEdge e).sampled =
      blockStep { e with word := word } (s.withEdge e).sampled
    simp [blockStep, he]

/-! ## Steps that answer (R44, R82) -/

theorem receiveStart_answers (s : State) : ∃ t, receiveStart s = .next t := by
  cases ha : s.att with
  | false => exact ⟨_, receiveStart_rejected ha⟩
  | true => exact ⟨_, receiveStart_ready ha⟩

theorem exec_answers (i : Instr) {s : State} (hb : s.busy = false) (hn : s.txCount.toNat ≤ 9) :
    ∃ t, exec i s = .next t := by
  obtain ⟨f, hi⟩ | ⟨c, v, hi⟩ | hi := exec_eq_accept i <;> rw [hi, accept_resting hb]
  · exact ⟨_, rfl⟩
  · exact sendStart_answers c v hn
  · exact receiveStart_answers s

theorem flushStep_answers (s : State) : ∃ t, flushStep s = .next t := by
  cases hd : s.drained with
  | false => exact ⟨_, flushStep_waiting hd⟩
  | true => exact ⟨_, flushStep_drained hd⟩

theorem settleStep_answers (s : State) : ∃ t, settleStep s = .next t := by
  by_cases hs : s.settled
  · exact ⟨_, settleStep_settled hs⟩
  · exact ⟨_, settleStep_waiting hs⟩

theorem seekByte_answers (b : Byte) (s : State) : ∃ t, seekByte b s = .next t := by
  by_cases hb : b = Config.prefixByte
  · exact ⟨_, hb ▸ seekByte_match s⟩
  · exact ⟨_, seekByte_other hb s⟩

/-- A byte is stored wherever RXCNT is a frame index (R41). -/
theorem collectByte_answers (b : Byte) {s : State} (h : s.rxcnt.toNat ≤ 8) :
    ∃ t, collectByte b s = .next t := by
  obtain ⟨f, hf⟩ := set?_isSome s.rxbuf b h
  by_cases hn : s.rxcnt + 1 = 9
  · exact ⟨_, collectByte_ninth hf hn⟩
  · exact ⟨_, collectByte_stored hf hn⟩

theorem pollStep_answers {onByte : Byte → State → Answer} {s : State}
    (h : ∀ b q, ∃ t, onByte b { s with rxq := q, out := { s.out with rxRead := true } } = .next t) :
    ∃ t, pollStep onByte s = .next t := by
  by_cases hd : s.deadlineReached
  · exact ⟨_, pollStep_deadline hd⟩
  cases hq : s.rxq with
  | nil => exact ⟨_, pollStep_empty hd hq⟩
  | cons b q =>
    obtain ⟨t, ht⟩ := h b q
    exact ⟨t, (pollStep_byte hd hq).trans ht⟩

theorem continueOp_answers {s : State} (h : s.phase = .collecting → s.rxcnt.toNat ≤ 8) :
    ∃ t, continueOp s = .next t := by
  cases hp : s.phase with
  | txFlush => exact continueOp_txFlush hp ▸ flushStep_answers s
  | txSettle => exact continueOp_txSettle hp ▸ settleStep_answers s
  | seekingPrefix =>
    exact continueOp_seekingPrefix hp ▸ pollStep_answers fun _ _ => seekByte_answers _ _
  | collecting =>
    exact continueOp_collecting hp ▸ pollStep_answers fun _ _ => collectByte_answers _ (h hp)
  | idle | complete | crcOk | crcFail | timeout =>
    exact ⟨s, continueOp_resting (by simp [State.busy, Phase.busy, hp])⟩

theorem step_reset {s : State} (h : s.edge.rst = true) : step s = .next (resetBlock s.sampled) :=
  if_pos h

/-- Settles O25: reset always answers, a request in the contract is accepted and decodes, and the
operation in progress goes on at a frame index of R28 item 2. -/
theorem inContractStepsAnswer : Obligations.InContractStepsAnswer := by
  intro s hs hc
  cases hr : s.edge.rst with
  | true => exact ⟨_, step_reset hr⟩
  | false =>
    obtain h | ⟨hn, hreq⟩ := hc
    · exact absurd (hr.symm.trans h) nofun
    cases hq : s.edge.req with
    | true =>
      obtain ⟨hb, i, hi⟩ := hreq hq
      exact step_of_requested ⟨hr, hq, hi⟩ ▸ exec_answers i (s := s.sampled) hb hn
    | false =>
      refine step_idle ⟨hr, hq⟩ ▸ continueOp_answers fun hp => ?_
      obtain ⟨-, h8, -⟩ := hs.collecting hp
      exact h8

end Sys2Proof.Machine

/-! The codec operations (spec/40_codec_ops.md).  The checksum is the one byte that brings the sum of
bytes 1 to 8 to 0 modulo 256 (R106 item 6); its other forms, what VERIFY detects and what it does not
are read off that equation. -/

namespace Sys2Proof.Machine

open Sys2Proof

/-! ## The checksum (R104 to R108) -/

/-- The checksum equation has one solution (R106 item 6). -/
theorem eq_csum_iff {f : Frame} {c : Byte} : c = csum f ↔ (sumBytes f + c.toNat) % 256 = 0 := by
  have hc := c.isLt
  rw [← BitVec.toNat_inj, csum_toNat]
  omega

/-- A number that solves the checksum equation is a form of the checksum. -/
theorem csum_eq_ofNat {f : Frame} {n : Nat} (h : (sumBytes f + n) % 256 = 0) :
    csum f = BitVec.ofNat 8 n := by
  refine (eq_csum_iff.2 ?_).symm
  rw [BitVec.toNat_ofNat]
  omega

/-- Settles O1: each form solves the checksum equation. -/
theorem checksumFormsAgree : Obligations.ChecksumFormsAgree := by
  intro f
  refine ⟨csum_eq_ofNat (by omega), rfl, csum_eq_ofNat (by omega), ?_, ?_,
    fun c => eq_csum_iff.symm⟩
  · refine (eq_csum_iff.2 ?_).symm
    rw [BitVec.toNat_ofInt]
    omega
  · refine csum_eq_ofNat ?_
    rw [BitVec.toNat_not, BitVec.toNat_ofNat]
    omega

/-- The checksum sees the sum modulo 256 and nothing else of the frame, and no two such values have
the same (R108). -/
theorem csum_eq_csum_iff {f g : Frame} : csum f = csum g ↔ sumBytes f % 256 = sumBytes g % 256 := by
  rw [← BitVec.toNat_inj, csum_toNat, csum_toNat]
  omega

/-- Settles O3: 256 divides the modulus of the accumulator. -/
theorem accumulatorWidthDoesNotMatter : Obligations.AccumulatorWidthDoesNotMatter := by
  intro f k hk
  have hdvd : 256 ∣ 2 ^ k := pow_dvd_pow 2 hk
  refine ⟨sumBytes_le f, ?_⟩
  rw [Nat.mod_mod_of_dvd _ hdvd]
  rfl

/-- Settles O4: the negative of a byte, alone in its frame, has that byte as its checksum. -/
theorem checksumIsBijectiveInTheSum : Obligations.ChecksumIsBijectiveInTheSum := by
  refine ⟨fun f g => csum_eq_csum_iff, fun c => ⟨{ Frame.zero with b7 := -c }, ?_⟩⟩
  refine (eq_csum_iff.2 ?_).symm
  have hsum : sumBytes { Frame.zero with b7 := -c } = (-c).toNat := Nat.zero_add _
  rw [hsum, BitVec.toNat_neg]
  omega

/-- The zero edge (R107). -/
theorem csum_eq_zero {f : Frame} (h : sumBytes f % 256 = 0) : csum f = 0 := csum_eq_ofNat h

/-! ## Verification (R109 to R112) -/

/-- The equivalent test of R110. -/
theorem verify_iff_sum {f : Frame} : verify f = true ↔ (sumBytes f + f.b8.toNat) % 256 = 0 := by
  rw [verify_eq_true, eq_comm, eq_csum_iff]

/-- Settles O5: byte 8 is the checksum exactly when it solves the checksum equation. -/
theorem verifyIffBytesSumToZero : Obligations.VerifyIffBytesSumToZero := fun _ => verify_iff_sum

/-- VERIFY sees the sum of bytes 1 to 8 modulo 256 and nothing else (R112 (b)). -/
theorem verify_congr {f g : Frame}
    (h : (sumBytes g + g.b8.toNat) % 256 = (sumBytes f + f.b8.toNat) % 256) :
    verify g = verify f := by
  rw [Bool.eq_iff_iff, verify_iff_sum, verify_iff_sum, h]

/-- The sum of R110 as that of a list. -/
theorem sum_toList_tail (f : Frame) :
    (f.toList.tail.map BitVec.toNat).sum = sumBytes f + f.b8.toNat := by
  simp [Frame.toList, sumBytes, Nat.add_assoc]

/-- Writing one of bytes 1 to 8 exchanges its part of the sum. -/
theorem sum_set? {f g : Frame} {i : Nat} {b c : Byte} (hi : 1 ≤ i) (hb : f.get? i = some b)
    (hg : f.set? c i = some g) :
    sumBytes g + g.b8.toNat + b.toNat = sumBytes f + f.b8.toNat + c.toNat := by
  have h8 : i ≤ 8 := set?_index_le hg
  interval_cases i <;> (cases hb; cases hg; simp only [sumBytes]; omega)

/-- No change of a single byte of bytes 1 to 8 goes undetected. -/
theorem verify_set?_of_ne {f g : Frame} {i : Nat} {b c : Byte} (hi : 1 ≤ i)
    (hb : f.get? i = some b) (hg : f.set? c i = some g) (hne : c ≠ b) (hf : verify f = true) :
    verify g = false := by
  rw [Bool.eq_false_iff]
  intro hv
  have hsum := sum_set? hi hb hg
  have hf0 := verify_iff_sum.1 hf
  have hg0 := verify_iff_sum.1 hv
  exact hne (by bv_omega)

theorem flipBit_ne (b : Byte) {j : Nat} (hj : j < 8) : b ^^^ (1#8 <<< j) ≠ b := by
  have hbit : ∀ j < 8, 1#8 <<< j ≠ 0#8 := by decide
  intro h
  exact hbit j hj ((BitVec.xor_right_inj b).1 (h.trans BitVec.xor_zero.symm))

/-- Settles O6: a flipped bit makes another byte of it, and a single changed byte is detected. -/
theorem singleBitFlipDetected : Obligations.SingleBitFlipDetected :=
  ⟨fun _ _ _ _ b hi _ hj hb hg => verify_set?_of_ne hi hb hg (flipBit_ne b hj),
    fun f _ => verify_set_b0 f _⟩

/-- What a byte gains another one loses, modulo 256. -/
theorem toNat_add_toNat_sub (a b d : Byte) :
    ((a + d).toNat + (b - d).toNat) % 256 = (a.toNat + b.toNat) % 256 := by
  rw [BitVec.toNat_add, BitVec.toNat_sub]
  have := d.isLt
  omega

/-- Settles O7: in each case the sum of R110 is the same modulo 256. -/
theorem cancellingChangesNotDetected : Obligations.CancellingChangesNotDetected := by
  refine ⟨fun f g hperm => verify_congr ?_, fun _ _ => verify_congr, verify_set_b0,
    fun f d => verify_congr ?_⟩
  · rw [← sum_toList_tail, ← sum_toList_tail, (hperm.map BitVec.toNat).sum_eq]
  · have h23 := toNat_add_toNat_sub f.b2 f.b3 d
    simp only [sumBytes]
    omega

/-! ## Sealing and building (R101 to R103) -/

theorem verify_sealFrame (p : Frame) : verify (sealFrame p) = true := verify_eq_true.2 rfl

theorem sealFrame_eq_self_iff {p : Frame} : sealFrame p = p ↔ verify p = true := by
  rw [verify_eq_true]
  constructor
  · intro h
    exact congrArg Frame.b8 h
  · intro h
    rw [sealFrame, h]

/-- Settles O8: the seal is the checksum, which does not read byte 8. -/
theorem sealMakesFramesVerify : Obligations.SealMakesFramesVerify :=
  ⟨fun p => ⟨verify_sealFrame p, sealFrame_eq_self_iff.2 (verify_sealFrame p),
    sealFrame_eq_self_iff⟩, fun _ _ _ => rfl⟩

/-- The guard of R101 spares only the writing of two zero bytes (R102 (c)). -/
theorem buildCommand_eq_build (c : Byte) (v : Val) : buildCommand c v = build c v := by
  by_cases hv : v = 0
  · subst hv
    rfl
  · simp only [buildCommand, if_neg hv]
    rfl

/-- Settles O9: the two splits differ at payload zero only, where both leave bytes 3 and 4 zero. -/
theorem payloadZeroIsNoPayload : Obligations.PayloadZeroIsNoPayload :=
  ⟨buildCommand_eq_build, fun _ => ⟨rfl, rfl⟩, rfl, rfl⟩

/-! ## The operations (R100) -/

/-- Settles O26: where BUSY = 0 each is accepted, and its one step writes its result and ERR. -/
theorem codecOperationsComplete : Obligations.CodecOperationsComplete := by
  intro s hb
  refine ⟨fun c v => ?_, fun f => ?_, fun f => ?_, fun f => ?_⟩
  · rw [exec_build, accept_resting hb, buildCommand_eq_build]
    rfl
  · exact (exec_sealFrame f s).trans (accept_resting hb _)
  · exact (exec_checksum f s).trans (accept_resting hb _)
  · exact (exec_verify f s).trans (accept_resting hb _)

/-- Settles O2: the checksum equation has the solution 0 there, and CHECKSUM always ends with OK. -/
theorem checksumZeroEdge : Obligations.ChecksumZeroEdge := by
  refine ⟨fun f s hsum hb => ?_, fun b0 b8 => csum_eq_zero rfl, by decide⟩
  have h0 : csum f = 0 := csum_eq_zero hsum
  obtain ⟨-, -, hchecksum, -⟩ := codecOperationsComplete s hb
  exact ⟨h0, (hchecksum f).trans (by rw [h0])⟩

end Sys2Proof.Machine

/-! SEND and RECEIVE (spec/41_transport_ops.md), step by step: the start steps, the flush,
settle and poll steps, and what no step of either touches. -/

namespace Sys2Proof.Machine

open Sys2Proof

/-! ## The steps of an operation in progress -/

theorem step_txFlush {s : State} (he : EdgeIdle s.edge) (hp : s.phase = .txFlush) :
    step s = flushStep s.sampled :=
  (step_idle he).trans (continueOp_txFlush (s := s.sampled) hp)

theorem step_txSettle {s : State} (he : EdgeIdle s.edge) (hp : s.phase = .txSettle) :
    step s = settleStep s.sampled :=
  (step_idle he).trans (continueOp_txSettle (s := s.sampled) hp)

theorem step_seekingPrefix {s : State} (he : EdgeIdle s.edge) (hp : s.phase = .seekingPrefix) :
    step s = pollStep seekByte s.sampled :=
  (step_idle he).trans (continueOp_seekingPrefix (s := s.sampled) hp)

theorem step_collecting {s : State} (he : EdgeIdle s.edge) (hp : s.phase = .collecting) :
    step s = pollStep collectByte s.sampled :=
  (step_idle he).trans (continueOp_collecting (s := s.sampled) hp)

/-- Both busy phases of RECEIVE poll; they differ in what they do with a byte. -/
theorem step_poll {s : State} (he : EdgeIdle s.edge)
    (hp : s.phase = .seekingPrefix ∨ s.phase = .collecting) :
    ∃ onByte, step s = pollStep onByte s.sampled := by
  rcases hp with hp | hp
  · exact ⟨_, step_seekingPrefix he hp⟩
  · exact ⟨_, step_collecting he hp⟩

/-- A step of an operation in progress is no request (R82), and no reset if `rst` is 0. -/
theorem edgeIdle_of_busy {s t : State} (hb : s.busy = true) (hr : s.edge.rst = false)
    (h : step s = .next t) : EdgeIdle s.edge := by
  refine ⟨hr, Bool.eq_false_iff.2 fun hq => ?_⟩
  obtain ⟨hr', -⟩ | ⟨-, -, i, -, hi⟩ | ⟨-, hq', -⟩ := blockStep_cases h
  · simp [hr] at hr'
  · exact absurd ((exec_busy i (s := s.sampled) hb).symm.trans hi) nofun
  · simp [hq] at hq'

/-! ## The start step of SEND (R121 to R123) -/

/-- Settles O28: the accepted count is 9, so all of the frame joins TXLOG. -/
theorem sendFullWrite : Obligations.SendFullWrite := by
  intro c v s hb ha hn
  have h9 : s.txCount.toNat = 9 := congrArg BitVec.toNat hn
  rw [exec_send, accept_resting hb, sendStart_full ha h9, h9]
  rfl

/-- A write of no byte leaves DRAINED alone (R44), with the count read as a port or as a number. -/
theorem txWrite_drained_port (s : State) :
    (txWrite s.txCount.toNat s).drained = if s.txCount = 0 then s.drained else false := by
  simp [BitVec.toNat_eq]

/-- Settles O29: both policies write the same bytes, and then one ends SEND, one flushes. -/
theorem sendShortWrite : Obligations.SendShortWrite := by
  intro c v s hb ha hn
  rw [exec_send, accept_resting hb]
  have hd := txWrite_drained_port { s with txbuf := build c v }
  cases hp : s.par.shortWrite with
  | abort =>
    exact ⟨_, sendStart_abort ha hn hp, ⟨rfl, rfl, rfl, rfl, rfl, rfl, rfl, rfl, rfl, rfl⟩,
      rfl, rfl, rfl, rfl, rfl, rfl, hd, fun _ => ⟨rfl, rfl⟩, nofun⟩
  | complete =>
    exact ⟨_, sendStart_complete ha hn hp, ⟨rfl, rfl, rfl, rfl, rfl, rfl, rfl, rfl, rfl, rfl⟩,
      rfl, rfl, rfl, rfl, rfl, rfl, hd, nofun, fun _ => ⟨rfl, rfl, rfl, rfl, rfl⟩⟩

/-- Settles O30: the rejection is an error entry and no more. -/
theorem sendRejectedUninitialized : Obligations.SendRejectedUninitialized := by
  intro c v s hb ha
  rw [exec_send, accept_resting hb, sendStart_rejected ha]
  exact ⟨rfl, rfl⟩

/-! ## The flush and settle steps of SEND (R124, R125) -/

/-- Settles O33: the flush step in the sampled state. -/
theorem flushStepWaitsForDrain : Obligations.FlushStepWaitsForDrain := by
  intro s he hp
  rw [step_txFlush he hp]
  exact ⟨flushStep_drained, flushStep_waiting⟩

/-- Settles O34: the settle step in the sampled state. -/
theorem settleStepEndsSend : Obligations.SettleStepEndsSend := by
  intro s he hp
  rw [step_txSettle he hp]
  exact ⟨fun hs => ⟨_, settleStep_settled hs, rfl⟩, fun hs => settleStep_waiting hs.not_ge⟩

/-! ## The start step of RECEIVE (R127, R128) -/

/-- Settles O35: the rejection is an error entry, and FOUT is drawn. -/
theorem receiveRejectedUninitialized : Obligations.ReceiveRejectedUninitialized := by
  intro s hb ha
  rw [exec_receive, accept_resting hb]
  exact ⟨_, receiveStart_rejected ha, rfl, rfl⟩

/-- Settles O36: with ATT = 1 the accepted request starts the search. -/
theorem receiveStarts : Obligations.ReceiveStarts := by
  intro s hb ha
  rw [exec_receive, accept_resting hb, receiveStart_ready ha]

/-! ## The poll steps of RECEIVE (R129 to R133) -/

/-- Settles O37: a poll tests the deadline before it looks at RXQ. -/
theorem pollAtDeadlineTimesOut : Obligations.PollAtDeadlineTimesOut := by
  intro s he hp hd
  obtain ⟨onByte, hstep⟩ := step_poll he hp
  exact ⟨_, hstep.trans (pollStep_deadline hd), rfl, rfl⟩

/-- Settles O38: the byte read is handed to the rule that seeks PREFIX. -/
theorem pollSeekingReadsOneByte : Obligations.PollSeekingReadsOneByte := by
  intro s b q he hp ht hq
  rw [step_seekingPrefix he hp, pollStep_byte ht.not_ge hq]
  refine ⟨?_, fun hb => seekByte_other hb _⟩
  rintro rfl
  exact seekByte_match _

/-- Settles O39: the byte read is stored at RXCNT, and the ninth one completes the frame. -/
theorem pollCollectingStoresOneByte : Obligations.PollCollectingStoresOneByte := by
  intro s b q he hp _ _ ht hq
  rw [step_collecting he hp, pollStep_byte ht.not_ge hq]
  constructor
  · intro hlt
    obtain ⟨f, hf⟩ := set?_isSome s.rxbuf b hlt.le
    have hn : s.rxcnt + 1 ≠ 9 := by bv_omega
    exact ⟨f, hf, collectByte_stored (s := s.readLeaving q) hf hn⟩
  · intro h8
    have hf : s.rxbuf.set? b s.rxcnt.toNat = some { s.rxbuf with b8 := b } := by
      rw [h8]
      rfl
    have hn : s.rxcnt + 1 = 9 := by
      rw [h8]
      rfl
    refine ⟨_, _, collectByte_ninth (s := s.readLeaving q) hf hn, rfl, fun hc => ?_, fun hc => ?_⟩
    · rw [completeFrame_match (verify_eq_true.2 hc)]
      simp only [← hn]
      rfl
    · rw [completeFrame_mismatch (verify_eq_false.2 hc)]
      simp only [← hn]
      rfl

/-- Settles O40: a poll before the deadline that finds RXQ empty yields. -/
theorem pollWithoutByteYields : Obligations.PollWithoutByteYields := by
  intro s he hp ht hq
  obtain ⟨onByte, hstep⟩ := step_poll he hp
  exact hstep.trans (pollStep_empty ht.not_ge hq)

/-! ## What no step touches (R120, R126) -/

theorem keepsReceiveSide_sendStart {c : Byte} {v : Val} {s t : State}
    (h : sendStart c v s = .next t) : KeepsReceiveSide s t := by
  obtain ⟨-, rfl⟩ | ⟨-, -, rfl⟩ | ⟨-, -, -, rfl⟩ | ⟨-, -, -, rfl⟩ := sendStart_cases h <;>
    exact ⟨rfl, rfl, rfl, rfl, rfl, rfl, rfl, rfl, rfl, rfl⟩

/-- Flush and settle steps keep the receive side and TXLOG, whatever they do to PHASE, ERR and the
registers of SEND. -/
theorem keepsReceiveSide_sending {s t : State} (he : EdgeIdle s.edge) (hs : s.sending = true)
    (h : step s = .next t) : KeepsReceiveSide s.sampled t ∧ t.txlog = s.txlog := by
  rcases sending_iff.1 hs with hp | hp
  · obtain ⟨-, rfl⟩ | ⟨-, rfl⟩ := flushStep_cases ((step_txFlush he hp).symm.trans h) <;>
      exact ⟨⟨rfl, rfl, rfl, rfl, rfl, rfl, rfl, rfl, rfl, rfl⟩, rfl⟩
  · obtain ⟨-, rfl⟩ | ⟨-, rfl⟩ := settleStep_cases ((step_txSettle he hp).symm.trans h) <;>
      exact ⟨⟨rfl, rfl, rfl, rfl, rfl, rfl, rfl, rfl, rfl, rfl⟩, rfl⟩

/-- Settles O49: a named command starts as a SEND does, and after that only flush and settle steps
are left. -/
theorem sendKeepsReceiveSide : Obligations.SendKeepsReceiveSide := by
  refine ⟨fun v s t i hi h => ?_, fun s t hs hr h => ?_⟩
  · obtain ⟨c, hc⟩ : ∃ c, exec i s = accept s (sendStart c v) := by
      obtain ⟨c, rfl⟩ | hi := hi
      · exact ⟨c, rfl⟩
      · simp only [List.mem_cons, List.not_mem_nil, or_false] at hi
        obtain rfl | rfl | rfl | rfl | rfl | rfl | rfl := hi <;> exact ⟨_, rfl⟩
    exact keepsReceiveSide_sendStart (accept_next (hc.symm.trans h)).2
  · exact keepsReceiveSide_sending (edgeIdle_of_busy (busy_iff.2 (.inr hs)) hr h) hs h

/-- RECEIVE has ended with a frame or at its deadline (R16). -/
def ReceiveEnded (t : State) : Prop :=
  t.phase = .crcOk ∨ t.phase = .crcFail ∨ t.phase = .timeout

/-- A poll step keeps the transmit side, and either ends RECEIVE or was before the deadline, which
it leaves as it is. -/
theorem stepTo_receiving {s t : State} (he : EdgeIdle s.edge) (hr : s.receiving = true)
    (hst : StepTo s t) :
    KeepsSendSide s.sampled t ∧
      (ReceiveEnded t ∨ (t.receiving = true ∧ s.sampled.elapsedT0 < s.tmo ∧
        t.par = s.par ∧ t.elapsedT0 = s.sampled.elapsedT0)) := by
  cases hst with
  | reset h => simp [he.1] at h
  | setFout hi | checksum hi | verify hi | attach hi | setTmo hi | sendRejected hi
  | sendWritten hi | sendAborted hi | receiveRejected hi | receiveStarted hi =>
    exact absurd he (not_edgeIdle_of_requested hi)
  | waited _ h => simp [hr] at h
  | drained _ hp | settled _ hp => simp [State.receiving, hp] at hr
  | timedOut =>
    exact ⟨⟨rfl, rfl, rfl, rfl, rfl, rfl, rfl, rfl, rfl⟩, .inl (.inr (.inr rfl))⟩
  | accepted => exact ⟨⟨rfl, rfl, rfl, rfl, rfl, rfl, rfl, rfl, rfl⟩, .inl (.inl rfl)⟩
  | failed => exact ⟨⟨rfl, rfl, rfl, rfl, rfl, rfl, rfl, rfl, rfl⟩, .inl (.inr (.inl rfl))⟩
  | yielded _ _ ht | discarded _ _ ht | stored _ _ ht =>
    exact ⟨⟨rfl, rfl, rfl, rfl, rfl, rfl, rfl, rfl, rfl⟩, .inr ⟨hr, ht, rfl, rfl⟩⟩
  | synchronised _ _ ht =>
    exact ⟨⟨rfl, rfl, rfl, rfl, rfl, rfl, rfl, rfl, rfl⟩, .inr ⟨rfl, ht, rfl, rfl⟩⟩

/-- Settles O50: the start step writes T0, RXCNT and PHASE, or is an error entry that draws FOUT;
the rest are poll steps. -/
theorem receiveKeepsSendSide : Obligations.ReceiveKeepsSendSide := by
  refine ⟨fun s t h => ?_, fun s t hr hrst h => ?_⟩
  · obtain ⟨-, hk⟩ := accept_next ((exec_receive s).symm.trans h)
    obtain ⟨-, rfl⟩ | ⟨-, rfl⟩ := receiveStart_cases hk <;>
      exact ⟨⟨rfl, rfl, rfl, rfl, rfl, rfl, rfl, rfl, rfl⟩, rfl, rfl, rfl⟩
  · have he := edgeIdle_of_busy (busy_iff.2 (.inl hr)) hrst h
    exact (stepTo_receiving he hr (step_cases h)).1

/-- Settles O41: the one event that leads to TIMEOUT is the poll at the deadline. -/
theorem timeoutNeverEarly : Obligations.TimeoutNeverEarly := by
  intro s t hr hst hp
  have hs : s.phase ≠ .timeout := fun h => by simp [State.receiving, h] at hr
  cases step_cases hst with
  | timedOut _ _ ht => exact ⟨ht, rfl, rfl, rfl⟩
  | setFout | checksum | verify | attach | setTmo | waited | yielded | discarded | stored =>
    exact absurd hp hs
  | _ => exact absurd hp nofun

end Sys2Proof.Machine

/-! Whole SENDs and RECEIVEs (R135, R139): runs over edges at which the operation in progress goes
on by itself. -/

namespace Sys2Proof.Machine

open Sys2Proof

/-! ## Runs over given edges -/

/-- `s` with the script reduced to the edge of the next step. -/
def State.facing (s : State) (e : Edge) : State := { s with inputs := [e] }

/-- Over the edges `es` the machine goes from `s` to `t`, whatever the script holds after them. -/
def RunsOver (s : State) (es : List Edge) (t : State) : Prop :=
  ∀ more, core.run es.length { s with inputs := es ++ more } = .next { t with inputs := more }

theorem runsOver_nil (s : State) : RunsOver s [] s := fun _ => rfl

/-- A first step puts its edge in front. -/
theorem RunsOver.cons {s t u : State} {e : Edge} {es : List Edge} (he : EdgeIdle e)
    (h : step (s.facing e) = .next t) (ht : RunsOver t es u) : RunsOver s (e :: es) u :=
  fun more => (run_succ (step_inputs he h (es ++ more))).trans (ht more)

theorem runsOver_singleton {s t : State} {e : Edge} (he : EdgeIdle e)
    (h : step (s.facing e) = .next t) : RunsOver s [e] t :=
  .cons he h (runsOver_nil t)

theorem RunsOver.trans {s t u : State} {es fs : List Edge} (h : RunsOver s es t)
    (h' : RunsOver t fs u) : RunsOver s (es ++ fs) u := by
  intro more
  rw [List.length_append, List.append_assoc]
  exact (run_add fs.length (h (fs ++ more))).trans (h' more)

/-- The run of a state whose script begins with the edges. -/
theorem RunsOver.run {s t : State} {es more : List Edge} (h : RunsOver s es t)
    (hs : s.inputs = es ++ more) : core.run es.length s = .next { t with inputs := more } := by
  have h := h more
  rw [← hs] at h
  exact h

/-- The run in an environment that begins with the edges. -/
theorem RunsOver.runIn {s t : State} {env : Environment} {k : Nat}
    (h : RunsOver s (env.first k) t) : runIn env k s = .next { t with inputs := [] } := by
  have h := h []
  rw [first_length, List.append_nil] at h
  exact h

theorem first_add (env : Environment) (m k : Nat) :
    env.first (m + k) = env.first m ++ (env.after m).first k := by
  simp [Environment.first, Environment.after, List.range_add]

/-- What comes first in an environment is as many of its edges. -/
theorem eq_first_of_prefix {env : Environment} {n : Nat} {es : List Edge}
    (h : es <+: env.first n) : es = env.first es.length := by
  obtain ⟨rest, hrest⟩ := h
  have hn : n = es.length + rest.length := by
    rw [← first_length env n, ← hrest, List.length_append]
  rw [hn, first_add] at hrest
  exact (List.append_inj hrest (first_length _ _).symm).1

/-! ## Timers (R139 (b)) -/

/-- A phase `P` that a timer ends is over, as `Q` says, by the edge at which the time `bound` has
elapsed.  A step of the phase either ends it, or finds less time elapsed and goes on. -/
theorem runsOver_of_timer {P : State → Prop} {Q : State → State → Prop} {clock : State → Nat}
    {bound w : Nat}
    (hstep : ∀ s e, P s → EdgeIdle e → ∃ t, step (s.facing e) = .next t ∧
      (Q s t ∨ (P t ∧ clock t = (clock s + e.advance) % 2 ^ w ∧ clock t < bound ∧
        ∀ u, Q t u → Q s u)))
    {s : State} {es : List Edge} (hP : P s) (he : ∀ e ∈ es, EdgeIdle e) (hne : es ≠ [])
    (hb : bound ≤ (clock s + totalAdvance es) % 2 ^ w) :
    ∃ first t, first <+: es ∧ RunsOver s first t ∧ Q s t := by
  induction es generalizing s with
  | nil => exact absurd rfl hne
  | cons e es ih =>
    obtain ⟨hidle, hes⟩ := List.forall_mem_cons.1 he
    obtain ⟨t, ht, hQ | ⟨hPt, hclock, hlt, hback⟩⟩ := hstep s e hP hidle
    · exact ⟨[e], t, ⟨es, rfl⟩, runsOver_singleton hidle ht, hQ⟩
    · have hrest : bound ≤ (clock t + totalAdvance es) % 2 ^ w := by
        rwa [hclock, Nat.mod_add_mod, Nat.add_assoc, ← totalAdvance_cons]
      have hnil : es ≠ [] := by
        rintro rfl
        rw [totalAdvance_nil, Nat.add_zero, hclock, Nat.mod_mod, ← hclock] at hrest
        exact absurd hrest hlt.not_ge
      obtain ⟨first, u, hfirst, hrun, hQ⟩ := ih hPt hes hnil hrest
      exact ⟨e :: first, u, List.cons_prefix_cons.2 ⟨rfl, hfirst⟩, .cons hidle ht hrun,
        hback u hQ⟩

/-! ## RECEIVE ends (R129, R139, R201) -/

/-- A sound state goes on at every edge that is no reset or request. -/
theorem step_facing_answers {s : State} {e : Edge} (hs : Inv s) (he : EdgeIdle e) :
    ∃ t, step (s.facing e) = .next t := by
  refine step_idle (s := s.facing e) he ▸ continueOp_answers fun hp => ?_
  obtain ⟨-, h8, -⟩ := hs.collecting hp
  exact h8

/-- RECEIVE in progress with deadline `tmo` under parameters `p`. -/
def ReceivingWith (p : Params) (tmo : Nat) (s : State) : Prop :=
  Inv s ∧ s.receiving = true ∧ s.par = p ∧ s.tmo = tmo

/-- Over edges by which the elapsed time has reached TMO a RECEIVE ends. -/
theorem receive_ends {s : State} {es : List Edge} (hs : Inv s) (hr : s.receiving = true)
    (he : ∀ e ∈ es, EdgeIdle e) (hne : es ≠ [])
    (hb : s.tmo ≤ (s.elapsedT0 + totalAdvance es) % 2 ^ s.par.wT) :
    ∃ first t, first <+: es ∧ RunsOver s first t ∧ ReceiveEnded t ∧ t.txlog = s.txlog := by
  refine runsOver_of_timer (P := ReceivingWith s.par s.tmo) (clock := State.elapsedT0)
    (Q := fun u v => ReceiveEnded v ∧ v.txlog = u.txlog) ?_ ⟨hs, hr, rfl, rfl⟩ he hne hb
  rintro u e ⟨hu, hru, hpar, htmo⟩ hidle
  obtain ⟨t, ht⟩ := step_facing_answers hu hidle
  have hst := step_cases ht
  obtain ⟨⟨-, -, -, htmo', -, -, -, htxlog, -⟩, hend | ⟨hrt, hlt, hpar', hclock⟩⟩ :=
    stepTo_receiving (s := u.facing e) hidle hru hst
  · exact ⟨t, ht, .inl ⟨hend, htxlog⟩⟩
  · refine ⟨t, ht, .inr ⟨⟨inv_stepTo (s := u.facing e) { hu with } hst, hrt, hpar'.trans hpar,
      htmo'.trans htmo⟩, ?_, ?_, fun v hv => ⟨hv.1, hv.2.trans htxlog⟩⟩⟩
    · rw [hclock, sampled_elapsedT0, ← hpar]
      rfl
    · rw [hclock, ← htmo]
      exact hlt

/-- Settles O53: below a whole period the elapsed time is the true one. -/
theorem receiveEndsByItsDeadline : Obligations.ReceiveEndsByItsDeadline := by
  intro s es more hs hr hin hne he hb hlt
  obtain ⟨first, t, hfirst, hrun, hend, htxlog⟩ :=
    receive_ends hs hr he hne (by rwa [Nat.mod_eq_of_lt hlt])
  obtain ⟨rest, rfl⟩ := hfirst
  have hrun := hrun.run (more := rest ++ more) (by rw [hin, List.append_assoc])
  exact ⟨first.length, _, by simp, hrun, hend, htxlog⟩

/-! ## SEND ends (R124, R125, R139) -/

/-- `t` is `s` after its SEND has ended, with the result its write decided (R125). -/
def SendEnded (s t : State) : Prop :=
  t.phase = .idle ∧ t.err = (if s.wshort then .transportE else .ok) ∧
    t.txlog = s.txlog ∧ t.fout = s.fout ∧ t.lastraw = s.lastraw ∧ t.rxcnt = s.rxcnt

/-- Over edges by which the elapsed time has reached SETTLE a settling SEND ends. -/
theorem settle_ends {s : State} {es : List Edge} (hp : s.phase = .txSettle)
    (he : ∀ e ∈ es, EdgeIdle e) (hne : es ≠ [])
    (hb : s.par.settle ≤ (s.elapsedT1 + totalAdvance es) % 2 ^ s.par.wT) :
    ∃ first t, first <+: es ∧ RunsOver s first t ∧ SendEnded s t := by
  refine runsOver_of_timer (P := fun u => u.phase = .txSettle ∧ u.par = s.par)
    (clock := State.elapsedT1) ?_ ⟨hp, rfl⟩ he hne hb
  rintro u e ⟨hpu, hpar⟩ hidle
  have hstep := step_txSettle (s := u.facing e) hidle hpu
  by_cases hs : (u.facing e).sampled.settled
  · exact ⟨_, hstep.trans (settleStep_settled hs), .inl ⟨rfl, rfl, rfl, rfl, rfl, rfl⟩⟩
  · refine ⟨_, hstep.trans (settleStep_waiting hs), .inr ⟨⟨hpu, hpar⟩, ?_, ?_, fun _ hv => hv⟩⟩
    · rw [← hpar]
      exact sampled_elapsedT1 (u.facing e)
    · rw [← hpar]
      exact Nat.lt_of_not_le hs

/-- Over edges by which DRAINED is true a flushing SEND comes to settle, at T1 = `now`. -/
theorem flush_drains {s : State} {es : List Edge} (hp : s.phase = .txFlush)
    (he : ∀ e ∈ es, EdgeIdle e) (hne : es ≠ []) (hd : drainedAfter s.drained es = true) :
    ∃ first t, first <+: es ∧ RunsOver s first t ∧ t.phase = .txSettle ∧ t.elapsedT1 = 0 ∧
      t.par = s.par ∧ ∀ u, SendEnded t u → SendEnded s u := by
  induction es generalizing s with
  | nil => exact absurd rfl hne
  | cons e es ih =>
    obtain ⟨hidle, hes⟩ := List.forall_mem_cons.1 he
    have hstep := step_txFlush (s := s.facing e) hidle hp
    cases hde : (s.facing e).sampled.drained with
    | true =>
      have ht := hstep.trans (flushStep_drained hde)
      exact ⟨[e], _, ⟨es, rfl⟩, runsOver_singleton hidle ht, rfl, elapsed_self _ _, rfl,
        fun _ hu => hu⟩
    | false =>
      have ht := hstep.trans (flushStep_waiting hde)
      have hnil : es ≠ [] := by
        rintro rfl
        exact absurd (hde.symm.trans hd) nofun
      obtain ⟨first, t, hfirst, hrun, hrest⟩ := ih (s := (s.facing e).sampled) hp hes hnil hd
      exact ⟨e :: first, t, List.cons_prefix_cons.2 ⟨rfl, hfirst⟩, .cons hidle ht hrun, hrest⟩

theorem totalAdvance_append (es fs : List Edge) :
    totalAdvance (es ++ fs) = totalAdvance es + totalAdvance fs := by
  simp [totalAdvance]

theorem drainedAfter_report {d : Edge} (hd : d.drained = some true) (b : Bool) (es : List Edge) :
    drainedAfter b (es ++ [d]) = true := by
  simp [drainedAfter, hd]

/-- Settles O54: SEND settles by the edge that reports the drain, and what is left of the edges is
long enough for the settle delay and shorter than a period. -/
theorem sendEndsAfterDrainAndSettle : Obligations.SendEndsAfterDrainAndSettle := by
  intro s before after more d _ hp hin hbefore hidle hafter hd hne hb hlt
  have hflush : ∀ e ∈ before ++ [d], EdgeIdle e := by
    simpa [or_imp, forall_and] using ⟨hbefore, hidle⟩
  obtain ⟨first, u, ⟨rest, hrest⟩, hrun, hpu, hu0, hpar, hback⟩ :=
    flush_drains hp hflush (by simp) (drainedAfter_report hd _ _)
  have htotal : totalAdvance first + totalAdvance rest = totalAdvance before + d.advance := by
    rw [← totalAdvance_append, hrest, totalAdvance_append]
    rfl
  have hsettle : ∀ e ∈ rest ++ after, EdgeIdle e := by
    intro e he
    rcases List.mem_append.1 he with he | he
    · exact hflush e (hrest ▸ List.mem_append_right _ he)
    · exact hafter e he
  obtain ⟨second, t, ⟨tail, htail⟩, hrun', hend⟩ := settle_ends hpu hsettle (by simp [hne]) (by
    rw [hu0, hpar, totalAdvance_append, Nat.mod_eq_of_lt (by omega)]
    omega)
  have hedges : before ++ d :: after = first ++ second ++ tail := by
    rw [List.append_assoc, htail, ← List.append_assoc, hrest]
    simp
  refine ⟨(first ++ second).length, _, ?_, (hrun.trans hrun').run (more := tail ++ more) ?_,
    hback t hend⟩
  · have := congrArg List.length hedges
    simp only [List.length_append, List.length_cons] at this ⊢
    omega
  · rw [hin, ← List.append_assoc, ← hedges]
    simp

/-! ## Under the assumptions of R139 -/

theorem first_succ_ne_nil (env : Environment) (n : Nat) : env.first (n + 1) ≠ [] := by
  simp [first_succ]

theorem receive_ends_in {s : State} {env : Environment} (hs : Inv s) (hr : s.receiving = true)
    (h : ReceiveProgress s env) :
    ∃ k t, RunsOver s (env.first k) t ∧ ReceiveEnded t ∧ t.txlog = s.txlog := by
  obtain ⟨n, hn⟩ := h.deadline
  obtain ⟨first, t, hfirst, hrun, hend⟩ :=
    receive_ends hs hr (keepsStepping_first h.stepping _) (first_succ_ne_nil env n) hn
  exact ⟨_, t, eq_first_of_prefix hfirst ▸ hrun, hend⟩

theorem settle_ends_in {s : State} {env : Environment} (hp : s.phase = .txSettle)
    (he : KeepsStepping env) (ht : TimeReaches s.par.wT s.elapsedT1 s.par.settle env) :
    ∃ k t, RunsOver s (env.first k) t ∧ SendEnded s t := by
  obtain ⟨n, hn⟩ := ht
  obtain ⟨first, t, hfirst, hrun, hend⟩ :=
    settle_ends hp (keepsStepping_first he _) (first_succ_ne_nil env n) hn
  exact ⟨_, t, eq_first_of_prefix hfirst ▸ hrun, hend⟩

/-- A flushing SEND drains at some edge, and the settle delay is over at some later edge. -/
theorem flush_ends_in {s : State} {env : Environment} (hp : s.phase = .txFlush)
    (h : SendProgress s env) : ∃ k t, RunsOver s (env.first k) t ∧ SendEnded s t := by
  obtain ⟨n, hn⟩ := h.drain hp
  obtain ⟨first, u, hfirst, hrun, hpu, hu0, hpar, hback⟩ :=
    flush_drains hp (keepsStepping_first h.stepping _) (first_succ_ne_nil env n) hn
  rw [eq_first_of_prefix hfirst] at hrun
  generalize first.length = m at hrun
  obtain ⟨k, t, hrun', hend⟩ := settle_ends_in hpu (keepsStepping_after h.stepping m) (by
    rw [hu0, hpar]
    exact h.settle m)
  refine ⟨m + k, t, ?_, hback t hend⟩
  rw [first_add]
  exact hrun.trans hrun'

/-- Without a drain every step of a flushing SEND waits. -/
theorem flush_waits {s : State} {env : Environment} (hp : s.phase = .txFlush)
    (he : KeepsStepping env) (hd : ¬ DrainsEventually s.drained env) (k : Nat) :
    ∃ t, RunsOver s (env.first k) t ∧ t.phase = .txFlush := by
  induction k generalizing s env with
  | zero => exact ⟨s, runsOver_nil s, hp⟩
  | succ k ih =>
    have hstep := step_txFlush (s := s.facing (env 0)) (he 0) hp
    have hde : (s.facing (env 0)).sampled.drained = false :=
      Bool.eq_false_iff.2 fun h => hd ⟨0, h⟩
    have hd' : ¬ DrainsEventually (s.facing (env 0)).sampled.drained (env.after 1) := by
      rintro ⟨n, hn⟩
      refine hd ⟨n + 1, ?_⟩
      rw [first_succ]
      exact hn
    obtain ⟨t, hrun, ht⟩ :=
      ih (s := (s.facing (env 0)).sampled) hp (keepsStepping_after he 1) hd'
    rw [first_succ]
    exact ⟨t, .cons (he 0) (hstep.trans (flushStep_waiting hde)) hrun, ht⟩

/-- Settles O59: RECEIVE ends at its timer, SEND at the drain and then at its timer; without the
drain each step finds DRAINED false. -/
theorem operationsEndUnderProgress : Obligations.OperationsEndUnderProgress := by
  refine ⟨fun s env hs hr h => ?_, fun s env _ hs h => ?_, fun s env hp he hd k => ?_⟩
  · obtain ⟨k, t, hrun, hend⟩ := receive_ends_in hs hr h
    exact ⟨k, _, hrun.runIn, hend⟩
  · obtain ⟨k, t, hrun, hend⟩ : ∃ k t, RunsOver s (env.first k) t ∧ SendEnded s t := by
      rcases sending_iff.1 hs with hp | hp
      · exact flush_ends_in hp h
      · exact settle_ends_in hp h.stepping (h.settling hp)
    exact ⟨k, _, hrun.runIn, hend⟩
  · obtain ⟨t, hrun, ht⟩ := flush_waits hp he hd k
    exact ⟨_, hrun.runIn, ht, busy_iff.2 (.inr (sending_iff.2 (.inl ht)))⟩

/-! ## RECEIVE delivers the first frame in RXQ (R130, R131, R135) -/

/-- Polls over the edges `es`, all of them before the deadline. -/
structure PolledInTime (s : State) (es : List Edge) : Prop where
  idle : ∀ e ∈ es, EdgeIdle e
  tmo : s.tmo < 2 ^ s.par.wT
  inTime : s.elapsedT0 + totalAdvance es < s.tmo

theorem PolledInTime.elapsed_sampled {s : State} {e : Edge} {es : List Edge}
    (h : PolledInTime s (e :: es)) :
    (s.facing e).sampled.elapsedT0 = s.elapsedT0 + e.advance := by
  have ht := h.inTime
  have hw := h.tmo
  rw [totalAdvance_cons] at ht
  rw [sampled_elapsedT0]
  exact Nat.mod_eq_of_lt (show s.elapsedT0 + e.advance < 2 ^ s.par.wT by omega)

theorem PolledInTime.lt {s : State} {e : Edge} {es : List Edge} (h : PolledInTime s (e :: es)) :
    (s.facing e).sampled.elapsedT0 < s.tmo := by
  have ht := h.inTime
  rw [totalAdvance_cons] at ht
  rw [h.elapsed_sampled]
  omega

theorem PolledInTime.tail {s : State} {e : Edge} {es : List Edge} (h : PolledInTime s (e :: es)) :
    PolledInTime (s.facing e).sampled es where
  idle _ he := h.idle _ (List.mem_cons_of_mem _ he)
  tmo := h.tmo
  inTime := by
    rw [h.elapsed_sampled, Nat.add_assoc, ← totalAdvance_cons]
    exact h.inTime

theorem facing_sampled_rxq (s : State) (e : Edge) :
    (s.facing e).sampled.rxq = s.rxq ++ e.arrive := rfl

/-- `t` is `s` after its RECEIVE has delivered `frame` and left `rest` in RXQ. -/
def Delivered (frame rest : List Byte) (s t : State) : Prop :=
  t.lastraw.toList = frame ∧ t.rxcnt = 9 ∧ t.rxq = rest ∧
    t.txlog = s.txlog ∧ t.tmo = s.tmo ∧ t.att = s.att ∧
    (verify t.lastraw = true → t.phase = .crcOk ∧ t.err = .ok ∧ t.fout = t.lastraw) ∧
    (verify t.lastraw = false → t.phase = .crcFail ∧ t.err = .crcE)

/-- A byte stored after `n` bytes makes `n + 1` of them. -/
theorem take_succ_set? {f g : Frame} {b : Byte} {n : Nat} (h : f.set? b n = some g) :
    g.toList.take (n + 1) = f.toList.take n ++ [b] := by
  have hn : n < f.toList.length := Nat.lt_succ_of_le (set?_index_le h)
  rw [toList_set? h, List.take_succ_eq_append_getElem (by simpa using hn), List.getElem_set_self,
    List.take_set_of_le le_rfl]

/-- The poll that reads the ninth byte delivers. -/
theorem collect_last {s : State} {e : Edge} {b : Byte} {q : List Byte} (hp : s.phase = .collecting)
    (hn : s.rxcnt = 8) (h : PolledInTime s [e]) (hq : (s.facing e).sampled.rxq = b :: q) :
    ∃ t, step (s.facing e) = .next t ∧ Delivered (s.rxbuf.toList.take 8 ++ [b]) q s t := by
  obtain ⟨t, f, ht, rfl, hok, hfail⟩ :=
    (pollCollectingStoresOneByte (s.facing e) b q (h.idle e (by simp)) hp
      (by simp [State.facing, hn]) (by simp [State.facing, hn]) h.lt hq).2 hn
  refine ⟨t, ht, ?_⟩
  by_cases hv : csum { s.rxbuf with b8 := b } = b
  · rw [hok hv]
    exact ⟨rfl, rfl, rfl, rfl, rfl, rfl, fun _ => ⟨rfl, rfl, rfl⟩,
      fun hf => absurd hv (verify_eq_false.1 hf)⟩
  · rw [hfail hv]
    exact ⟨rfl, rfl, rfl, rfl, rfl, rfl, fun ht => absurd (verify_eq_true.1 ht) hv,
      fun _ => ⟨rfl, rfl⟩⟩

/-- Polled once for each byte missing after the bytes `got`, a collecting RECEIVE delivers. -/
theorem collect_delivers {s : State} {es : List Edge} {got body rest : List Byte}
    (hp : s.phase = .collecting) (h1 : 1 ≤ s.rxcnt.toNat) (h8 : s.rxcnt.toNat ≤ 8)
    (hgot : s.rxbuf.toList.take s.rxcnt.toNat = got) (hbody : s.rxcnt.toNat + body.length = 9)
    (hlen : es.length = body.length) (h : PolledInTime s es) (hq : s.rxq = body ++ rest) :
    ∃ t, RunsOver s es t ∧ Delivered (got ++ body) (rest ++ arrivals es) s t := by
  induction body generalizing s es got rest with
  | nil => exact absurd hbody (by simp; omega)
  | cons b body ih =>
    obtain ⟨e, es, rfl⟩ := List.exists_cons_of_length_eq_add_one hlen
    have hidle : EdgeIdle e := h.idle e List.mem_cons_self
    have hsq : (s.facing e).sampled.rxq = b :: (body ++ (rest ++ e.arrive)) := by
      simp [facing_sampled_rxq, hq]
    rw [List.length_cons] at hbody
    obtain hn | hn := Nat.lt_or_eq_of_le h8
    · obtain ⟨f, hf, hstep⟩ :=
        (pollCollectingStoresOneByte (s.facing e) b _ hidle hp h1 h8 h.lt hsq).1 hn
      have hsucc : (s.rxcnt + 1).toNat = s.rxcnt.toNat + 1 := by bv_omega
      have hgot' : f.toList.take (s.rxcnt + 1).toNat = got ++ [b] := by
        rw [hsucc, ← hgot]
        exact take_succ_set? hf
      obtain ⟨t, hrun, ht⟩ := ih
        (s := { (s.facing e).readLeaving (body ++ (rest ++ e.arrive)) with
                rxbuf := f, rxcnt := s.rxcnt + 1 })
        hp (by simp only [hsucc]; omega) (by simp only [hsucc]; omega) hgot'
        (by simp only [hsucc]; omega) (by simpa using hlen) { h.tail with } rfl
      rw [arrivals_cons, ← List.append_assoc, List.append_cons]
      exact ⟨t, .cons hidle hstep hrun, ht⟩
    · obtain rfl : body = [] := List.eq_nil_of_length_eq_zero (by omega)
      obtain rfl : es = [] := List.eq_nil_of_length_eq_zero (by simpa using hlen)
      obtain ⟨t, ht, hd⟩ := collect_last hp (BitVec.eq_of_toNat_eq hn) h hsq
      rw [← hgot, hn, arrivals_cons, arrivals_nil, List.append_nil]
      exact ⟨t, runsOver_singleton hidle ht, hd⟩

/-- Polled once for each byte up to the end of the first frame, a seeking RECEIVE delivers it. -/
theorem seek_delivers {s : State} {es : List Edge} {junk body rest : List Byte}
    (hp : s.phase = .seekingPrefix) (hjunk : ∀ b ∈ junk, b ≠ 0xFF) (hbody : body.length = 8)
    (hlen : es.length = junk.length + 9) (h : PolledInTime s es)
    (hq : s.rxq = junk ++ 0xFF :: (body ++ rest)) :
    ∃ t, RunsOver s es t ∧ Delivered (0xFF :: body) (rest ++ arrivals es) s t := by
  induction junk generalizing s es rest with
  | nil =>
    obtain ⟨e, es, rfl⟩ := List.exists_cons_of_length_eq_add_one hlen
    have hidle : EdgeIdle e := h.idle e List.mem_cons_self
    have hsq : (s.facing e).sampled.rxq = 0xFF :: (body ++ (rest ++ e.arrive)) := by
      simp [facing_sampled_rxq, hq]
    have hstep := (pollSeekingReadsOneByte (s.facing e) _ _ hidle hp h.lt hsq).1 rfl
    obtain ⟨t, hrun, ht⟩ := collect_delivers
      (s := { (s.facing e).readLeaving (body ++ (rest ++ e.arrive)) with
              rxbuf := { s.rxbuf with b0 := 0xFF }, rxcnt := 1, phase := .collecting })
      (es := es) (body := body) (rest := rest ++ e.arrive) rfl (by simp) (by simp) rfl
      (by simp [hbody]) (by simpa [hbody] using hlen) { h.tail with } rfl
    rw [arrivals_cons, ← List.append_assoc]
    exact ⟨t, .cons hidle hstep hrun, ht⟩
  | cons b junk ih =>
    obtain ⟨e, es, rfl⟩ := List.exists_cons_of_length_eq_add_one hlen
    have hidle : EdgeIdle e := h.idle e List.mem_cons_self
    obtain ⟨hb, hjunk⟩ := List.forall_mem_cons.1 hjunk
    have hsq : (s.facing e).sampled.rxq =
        b :: (junk ++ 0xFF :: (body ++ (rest ++ e.arrive))) := by
      simp [facing_sampled_rxq, hq]
    have hstep := (pollSeekingReadsOneByte (s.facing e) _ _ hidle hp h.lt hsq).2 hb
    obtain ⟨t, hrun, ht⟩ := ih (s := (s.facing e).readLeaving _) (es := es)
      (rest := rest ++ e.arrive) hp hjunk (by simpa using hlen) { h.tail with } rfl
    rw [arrivals_cons, ← List.append_assoc]
    exact ⟨t, .cons hidle hstep hrun, ht⟩

/-- Settles O52: polls discard what comes before PREFIX, and then collect. -/
theorem receiveDeliversTheFrame : Obligations.ReceiveDeliversTheFrame := by
  intro s es more junk body rest hp _ _ hw hin he ht hjunk hbody hlen hq
  obtain ⟨t, hrun, hframe, hn, hrest, htxlog, htmo, hatt, hok, hfail⟩ :=
    seek_delivers hp hjunk hbody hlen ⟨he, hw, ht⟩ hq
  exact ⟨_, hrun.run hin, hframe, hn, hrest, rfl, htxlog, htmo, hatt, hok, hfail⟩

end Sys2Proof.Machine

/-! ATTACH, SETTMO and RDLAST (spec/42_config_ops.md R150 to R153). -/

namespace Sys2Proof.Machine

open Sys2Proof

/-- In either mode SETTMO stores the W_T low bits of its operand (R152; log 15). -/
theorem exec_setTmo_resting {s : State} (hb : s.busy = false) (tin : Nat) :
    exec (.setTmo tin) s = .next (finishOk { s with tmo := truncTime s.par.wT tin }) :=
  (exec_setTmo tin s).trans (accept_resting hb _)

/-- Settles O27: where BUSY = 0 each is accepted, and its one step writes its register and ERR;
cutting a W_T-bit operand to W_T bits leaves it as it is. -/
theorem configOperationsComplete : Obligations.ConfigOperationsComplete := by
  intro s hb
  refine ⟨?attach, fun tin => ?cut, fun tin hw => ?fits, ?rdLast⟩
  case attach => exact (exec_attach s).trans (accept_resting hb _)
  case cut => exact exec_setTmo_resting hb tin
  case fits =>
    rw [exec_setTmo_resting hb, truncTime_of_lt hw]
    rfl
  case rdLast => exact (exec_rdLast s).trans (accept_resting hb _)

end Sys2Proof.Machine

/-! The named command frames (spec/43_command_frames.md R160 to R167). -/

namespace Sys2Proof.Machine

open Sys2Proof

/-- The bytes of a command frame in the order in which they are sent (R8, R160). -/
theorem build_toList (c : Byte) (v : Val) :
    (build c v).toList =
      [0xFF, 0x01, c, valHi v, valLo v, 0x00, 0x00, 0x00, (build c v).b8] := rfl

/-- A row of the command table means the SEND of its code, in every state (R160; log 2). -/
theorem exec_namedCommand {v : Val} {i : Instr} {c : Byte} (s : State)
    (hi : (i, c) ∈ ([(.cAbc v, 0x79), (.cRead v, 0x86), (.cZero v, 0x87), (.cSpan v, 0x88),
      (.cRange v, 0x99), (.cLock v, 0x9F), (.cVersion v, 0xA0)] : List (Instr × Byte))) :
    exec i s = exec (.send c v) s := by
  simp only [List.mem_cons, List.not_mem_nil, or_false, Prod.mk.injEq] at hi
  rw [exec_send]
  obtain ⟨rfl, rfl⟩ | ⟨rfl, rfl⟩ | ⟨rfl, rfl⟩ | ⟨rfl, rfl⟩ | ⟨rfl, rfl⟩ | ⟨rfl, rfl⟩ |
    ⟨rfl, rfl⟩ := hi
  · exact exec_cAbc v s
  · exact exec_cRead v s
  · exact exec_cZero v s
  · exact exec_cSpan v s
  · exact exec_cRange v s
  · exact exec_cLock v s
  · exact exec_cVersion v s

/-- Settles O32: a named command is a SEND, and a full write of it sends all bytes of its frame. -/
theorem namedCommandsEmitTheirFrames : Obligations.NamedCommandsEmitTheirFrames := by
  intro v s i c hi
  refine ⟨exec_namedCommand s hi, fun hb ha hn => ?_⟩
  rw [exec_namedCommand s hi, ← build_toList]
  exact sendFullWrite c v s hb ha hn

end Sys2Proof.Machine

/-! The calls of the surrounding software (spec/44_driver_pseudo_ops.md): the filter of `readCO2()`
over several readings, and an exchange from its request to what it returns. -/

namespace Sys2Proof.Machine

open Sys2Proof

/-! ## The filter (R183) -/

theorem filterReadings_cons (raw : Nat) (rest : List Nat) (w : Software) :
    filterReadings (raw :: rest) w =
      ((filterReading raw w).1 :: (filterReadings rest (filterReading raw w).2).1,
        (filterReadings rest (filterReading raw w).2).2) := rfl

/-- Later readings find the accumulators as the earlier ones left them. -/
theorem filterReadings_append (rs ss : List Nat) (w : Software) :
    filterReadings (rs ++ ss) w =
      ((filterReadings rs w).1 ++ (filterReadings ss (filterReadings rs w).2).1,
        (filterReadings ss (filterReadings rs w).2).2) := by
  induction rs generalizing w with
  | nil => rfl
  | cons raw rs ih => simp [filterReadings_cons, ih]

theorem filterReadings_unfiltered {w : Software} (h : w.fwin ≤ 1) (rs : List Nat) :
    filterReadings rs w = (rs, w) := by
  induction rs with
  | nil => rfl
  | cons raw rs ih => rw [filterReadings_cons, filterReading_unfiltered h, ih]

/-- Readings that do not fill the window add up in the accumulators. -/
theorem filterReadings_filling {w : Software} {rs : List Nat} (h : w.fcnt + rs.length < w.fwin) :
    filterReadings rs w =
      (rs, { w with fsum := w.fsum + rs.sum, fcnt := w.fcnt + rs.length }) := by
  induction rs generalizing w with
  | nil => rfl
  | cons raw rs ih =>
    rw [List.length_cons] at h
    have hrest := ih (w := { w with fsum := w.fsum + raw, fcnt := w.fcnt + 1 })
      (show w.fcnt + 1 + rs.length < w.fwin by omega)
    rw [filterReadings_cons, filterReading_filling (by omega), hrest]
    simp only [List.sum_cons, List.length_cons, Nat.add_assoc, Nat.add_comm 1]

/-- The reading that fills the window returns the average of the batch and clears the
accumulators. -/
theorem filterReadings_fullBatch {w : Software} {rs : List Nat} (hw : 2 ≤ w.fwin)
    (h : w.fcnt + rs.length + 1 = w.fwin) (last : Nat) :
    filterReadings (rs ++ [last]) w =
      (rs ++ [(w.fsum + (rs ++ [last]).sum) / w.fwin], { w with fsum := 0, fcnt := 0 }) := by
  have hlast := filterReading_full
    (w := { w with fsum := w.fsum + rs.sum, fcnt := w.fcnt + rs.length }) hw h.ge last
  rw [filterReadings_append, filterReadings_filling (by omega), filterReadings_cons, hlast,
    List.sum_append, List.sum_singleton, ← Nat.add_assoc]
  rfl

/-- Settles O57: by induction on the readings that do not fill the window, and then the one that
does. -/
theorem filterAveragesEachBatch : Obligations.FilterAveragesEachBatch := by
  refine ⟨fun w rs h => filterReadings_unfiltered h rs, ?_, ?_⟩
  · rintro ⟨variant, fwin, fsum, fcnt⟩ rs hw rfl rfl hlen
    obtain rfl | ⟨init, last, rfl⟩ := rs.eq_nil_or_concat
    · exact absurd (hw.trans hlen.ge) (by simp)
    · rw [List.concat_eq_append] at hlen ⊢
      rw [filterReadings_fullBatch hw (by simpa using hlen), List.dropLast_concat, Nat.zero_add]
  · rintro ⟨variant, fwin, fsum, fcnt⟩ rs - rfl rfl hlen
    rw [filterReadings_filling (by simpa using hlen)]
    simp

/-! ## Moves of a call (R180) -/

section Moves

variable {c : DriverCall} {n : Nat} {w w' : Software} {s t : State} {r : DriverResult}

/-- A call that reports returns at once. -/
theorem returned_of_report {x : Except ResultCode Frame} (hm : c.move s = .report x)
    (h : c.run n w s = .returned r w' t) : t = s ∧ (r, w') = c.op.finish x w := by
  obtain ⟨m, rfl, ⟨y, hy, ht, hr⟩ | ⟨hm', -⟩ | ⟨i, hm', -⟩⟩ := run_returned_cases h
  · cases hm.symm.trans hy
    exact ⟨ht, hr⟩
  · exact absurd (hm.symm.trans hm') nofun
  · exact absurd (hm.symm.trans hm') nofun

/-- A call that requests an operation goes on where the step that accepts it leads. -/
theorem returned_of_request {i : Instr} (hm : c.move s = .request i)
    (h : c.run n w s = .returned r w' t) :
    ∃ m u, n = m + 1 ∧ step (s.withHost (some i)) = .next u ∧
      DriverCall.run m { c with todo := c.todo.tail, started := true } w u = .returned r w' t := by
  obtain ⟨m, rfl, ⟨y, hm', -⟩ | ⟨hm', -⟩ | ⟨j, hj, u, hu, hrun⟩⟩ := run_returned_cases h
  · exact absurd (hm.symm.trans hm') nofun
  · exact absurd (hm.symm.trans hm') nofun
  · cases hm.symm.trans hj
    exact ⟨m, u, rfl, hu, hrun⟩

/-- A call that returns has waited until BUSY was 0; what its waiting steps keep holds then. -/
theorem returned_after_waiting {P : State → Prop}
    (hP : ∀ u v, P u → u.busy = true → step (u.withHost none) = .next v → P v) (hs : P s)
    (h : c.run n w s = .returned r w' t) :
    ∃ k m u, n = k + m ∧ P u ∧ u.busy = false ∧ c.run k w s = .pending c u ∧
      c.run m w u = .returned r w' t := by
  induction n generalizing s with
  | zero => exact absurd h nofun
  | succ n ih =>
    cases hb : s.busy with
    | false => exact ⟨0, n + 1, s, (Nat.zero_add _).symm, hs, hb, rfl, h⟩
    | true =>
      have hm : c.move s = .wait := move_busy hb
      obtain ⟨m, hn, ⟨y, hm', -⟩ | ⟨-, u, hu, hrun⟩ | ⟨j, hm', -⟩⟩ := run_returned_cases h
      · exact absurd (hm.symm.trans hm') nofun
      · obtain rfl := Nat.succ.inj hn
        obtain ⟨k, m, v, rfl, hv, hbv, hk, hrest⟩ := ih (hP s u hs hb hu) hrun
        exact ⟨k + 1, m, v, Nat.add_right_comm k m 1, hv, hbv, (run_wait k hm hu).trans hk, hrest⟩
      · exact absurd (hm.symm.trans hm') nofun

end Moves

/-! ## The SEND of an exchange -/

/-- `t` is `s` during its SEND or when that has ended: nothing but arrivals has touched RXQ, and
LASTRAW and FOUT are as they were. -/
structure InSend (s t : State) : Prop where
  phase : t.sending = true ∨ t.phase = .idle
  rxq : s.rxq <+: t.rxq
  lastraw : t.lastraw = s.lastraw
  fout : t.fout = s.fout

/-- The software's request is what the next step runs. -/
theorem step_withHost_request {i : Instr} {s : State} (hw : i.wf s.par.wT = true) :
    step (s.withHost (some i)) = exec i (s.withHost (some i)).sampled :=
  step_of_requestOf rfl rfl hw rfl

theorem phase_of_sendStart {c : Byte} {v : Val} {s t : State} (h : sendStart c v s = .next t) :
    t.sending = true ∨ t.phase = .idle := by
  obtain ⟨-, rfl⟩ | ⟨-, -, rfl⟩ | ⟨-, -, -, rfl⟩ | ⟨-, -, -, rfl⟩ := sendStart_cases h
  · exact .inr rfl
  · exact .inl rfl
  · exact .inr rfl
  · exact .inl rfl

theorem phase_of_sending {s t : State} (he : EdgeIdle s.edge) (hs : s.sending = true)
    (h : step s = .next t) : t.sending = true ∨ t.phase = .idle := by
  rcases sending_iff.1 hs with hp | hp
  · obtain ⟨-, rfl⟩ | ⟨-, rfl⟩ := flushStep_cases ((step_txFlush he hp).symm.trans h)
    · exact .inl rfl
    · exact .inl hs
  · obtain ⟨-, rfl⟩ | ⟨-, rfl⟩ := settleStep_cases ((step_txSettle he hp).symm.trans h)
    · exact .inr rfl
    · exact .inl hs

/-- The registers an exchange looks at are on the side that SEND keeps. -/
theorem inSend_of_keepsReceiveSide {s u t : State} (hp : t.sending = true ∨ t.phase = .idle)
    (hrxq : s.rxq <+: u.rxq) (hraw : u.lastraw = s.lastraw) (hfout : u.fout = s.fout)
    (h : KeepsReceiveSide u t) : InSend s t := by
  obtain ⟨hf, -, -, hl, -, -, -, -, -, hq⟩ := h
  exact ⟨hp, hq ▸ hrxq, hl.trans hraw, hf.trans hfout⟩

/-- The start step of SEND. -/
theorem inSend_requested {c : Byte} {v : Val} {s t : State}
    (h : step (s.withHost (some (.send c v))) = .next t) : InSend s t := by
  rw [step_withHost_request rfl, exec_send] at h
  obtain ⟨-, hk⟩ := accept_next h
  exact inSend_of_keepsReceiveSide (u := (s.withHost _).sampled) (phase_of_sendStart hk)
    (List.prefix_append _ _) rfl rfl (keepsReceiveSide_sendStart hk)

/-- The flush and settle steps. -/
theorem inSend_waited {s u t : State} (hu : InSend s u) (hb : u.busy = true)
    (h : step (u.withHost none) = .next t) : InSend s t := by
  have he : EdgeIdle (u.withHost none).edge := ⟨rfl, rfl⟩
  obtain hs | hp := hu.phase
  · exact inSend_of_keepsReceiveSide (u := (u.withHost none).sampled) (phase_of_sending he hs h)
      (hu.rxq.trans (List.prefix_append _ _)) hu.lastraw hu.fout
      (keepsReceiveSide_sending he hs h).1
  · simp [State.busy, Phase.busy, hp] at hb

/-- Where BUSY = 0 the SEND has ended. -/
theorem InSend.idle {s t : State} (h : InSend s t) (hb : t.busy = false) : t.phase = .idle :=
  h.phase.resolve_left fun hs => by simp [busy_iff.2 (.inr hs)] at hb

/-! ## A whole exchange -/

/-- The last operation of a call has been requested: it returns when BUSY is 0, with what that
operation left in ERR and FOUT. -/
theorem returned_of_last {p : PseudoOp} {n : Nat} {w w' : Software} {s t : State} {r : DriverResult}
    (h : DriverCall.run n { op := p, todo := [], started := true } w s = .returned r w' t) :
    t.busy = false ∧ (r, w') = p.finish (exchangeResult .ok t.err t.fout) w := by
  obtain ⟨-, m, u, -, -, hb, -, hrun⟩ :=
    returned_after_waiting (P := fun _ => True) (fun _ _ _ _ _ => trivial) trivial h
  by_cases he : u.err = .ok
  · obtain ⟨rfl, hr⟩ := returned_of_report (move_last hb (.inr he) rfl) hrun
    exact ⟨hb, by simpa [exchangeResult, he] using hr⟩
  · obtain ⟨rfl, hr⟩ := returned_of_report (move_error hb rfl he) hrun
    exact ⟨hb, by simpa [exchangeResult, he] using hr⟩

theorem call_todo (p : PseudoOp) : p.call.todo = p.requests := rfl

/-- An exchange begins with its SEND. -/
theorem run_exchange {p : PseudoOp} {c : Byte} {v : Val} {w : Software} {s u : State}
    (hp : p.requests = [.send c v, .receive]) (hb : s.busy = false)
    (hu : step (s.withHost (some (.send c v))) = .next u) (n : Nat) :
    p.call.run (n + 1) w s =
      DriverCall.run n { op := p, todo := [.receive], started := true } w u := by
  rw [run_request n (move_request hb (.inl rfl) hp) hu, call_todo, hp]
  rfl

/-- The two ways in which an exchange returns. -/
theorem exchange_returned {p : PseudoOp} {c : Byte} {v : Val} {n : Nat} {w w' : Software}
    {s t : State} {r : DriverResult} (hp : p.requests = [.send c v, .receive])
    (hb : s.busy = false) (h : p.call.run n w s = .returned r w' t) :
    (t.err ≠ .ok ∧ (r, w') = p.finish (.error t.err) w ∧ t.busy = false ∧ InSend s t) ∨
    ∃ k u, k < n ∧
      p.call.run k w s = .pending { op := p, todo := [.receive], started := true } u ∧
      u.busy = false ∧ u.err = .ok ∧ InSend s u ∧ t.busy = false ∧
      (r, w') = p.finish (exchangeResult u.err t.err t.fout) w := by
  obtain ⟨n, u, rfl, hu, -⟩ := returned_of_request (move_request hb (.inl rfl) hp) h
  have hstart := run_exchange (w := w) hp hb hu
  rw [hstart] at h
  obtain ⟨k, m, v, rfl, hv, hbv, hk, hrun⟩ :=
    returned_after_waiting (fun _ _ => inSend_waited) (inSend_requested hu) h
  by_cases he : v.err = .ok
  · obtain ⟨m, x, rfl, -, hlast⟩ := returned_of_request (move_request hbv (.inr he) rfl) hrun
    obtain ⟨hbt, hr⟩ := returned_of_last hlast
    exact .inr ⟨k + 1, v, by omega, (hstart k).trans hk, hbv, he, hv, hbt, he ▸ hr⟩
  · obtain ⟨rfl, hr⟩ := returned_of_report (move_error hbv rfl he) hrun
    exact .inl ⟨he, hr, hbv, hv⟩

/-- In Uninitialized an exchange ends with the rejection of its SEND (R85, R121). -/
theorem exchange_uninitialized {p : PseudoOp} {c : Byte} {v : Val}
    (hp : p.requests = [.send c v, .receive]) {s : State} (hb : s.busy = false)
    (ha : s.att = false) (n : Nat) (w : Software) :
    p.call.run (n + 2) w s =
      .returned (p.finish (.error .invalidE) w).1 (p.finish (.error .invalidE) w).2
        (raiseError .idle .invalidE (s.withHost (some (.send c v))).sampled) := by
  have hu : step (s.withHost (some (.send c v))) =
      .next (raiseError .idle .invalidE (s.withHost (some (.send c v))).sampled) := by
    rw [step_withHost_request rfl]
    exact (sendRejectedUninitialized c v (s.withHost _).sampled hb ha).1
  rw [run_exchange hp hb hu (n + 1)]
  exact run_report n (move_error rfl rfl nofun)

/-- Settles O60: a call waits, reports or requests, and while it waits for its SEND the receive side
is kept. -/
theorem exchangeStopsAtFirstError : Obligations.ExchangeStopsAtFirstError := by
  refine ⟨?returned, ?uninitialized, ?range, ?configuration⟩
  case returned =>
    intro p c v n w w' s t r hp hb h
    obtain ⟨he, hr, hbt, ht⟩ | ⟨k, u, hk, hrun, hbu, he, hu, hbt, hr⟩ := exchange_returned hp hb h
    · exact .inl ⟨he, hr, ht.idle hbt, ht.rxq, ht.lastraw, ht.fout⟩
    · exact .inr ⟨k, u, hk, hrun, hbu, he, hu.rxq, hu.lastraw, hbt, hr⟩
  case uninitialized =>
    intro p c v n w s hp hb ha
    exact ⟨_, exchange_uninitialized hp hb ha n w, rfl, rfl, rfl⟩
  case range =>
    intro range n w s h2000 h5000 hb
    obtain ⟨hnone, hfinish⟩ := setRange_rejected ⟨h2000, h5000⟩ (.ok s.fout) w
    rw [run_report n (move_last hb (.inl rfl) hnone)]
    exact congrArg (fun x => CallOutcome.returned x.1 x.2 s) hfinish
  case configuration =>
    rintro p f e w (hp | ⟨ppm, rfl⟩ | ⟨on, rfl⟩ | ⟨code, rfl⟩)
    · simp only [List.mem_cons, List.not_mem_nil, or_false] at hp
      obtain rfl | rfl | rfl | rfl := hp <;> exact ⟨rfl, rfl⟩
    all_goals exact ⟨rfl, rfl⟩

end Sys2Proof.Machine

/-! Reset, and a transport that never reports the drain (spec/70_reset_and_hazards.md R230, R246). -/

namespace Sys2Proof.Machine

open Sys2Proof

/-- Settles O20: `rst` wins over the other inputs, and the reset of the sampled state writes the
registers of R230; the five it leaves unspecified are drawn afresh. -/
theorem resetStepSetsRegisters : Obligations.ResetStepSetsRegisters :=
  fun s hr => ⟨resetBlock s.sampled, step_reset hr, rfl⟩

/-- DRAINED stays false over an edge that does not report the drain (R45). -/
theorem sampled_drained_eq_false {s : State} (hd : s.drained = false)
    (he : s.edge.drained ≠ some true) : s.sampled.drained = false := by
  rw [sampled_drained]
  cases h : s.edge.drained with
  | none => exact hd
  | some d => exact Bool.eq_false_iff.2 fun hdt => he (h.trans (congrArg some hdt))

/-- Over edges none of which reports the drain a flushing SEND waits, and writes nothing. -/
theorem flush_waits_undrained {s : State} {es : List Edge} (hp : s.phase = .txFlush)
    (hd : s.drained = false) (he : ∀ e ∈ es, EdgeIdle e ∧ e.drained ≠ some true) :
    ∃ t, RunsOver s es t ∧ t.phase = .txFlush ∧ t.txlog = s.txlog := by
  induction es generalizing s with
  | nil => exact ⟨s, runsOver_nil s, hp, rfl⟩
  | cons e es ih =>
    obtain ⟨⟨hidle, hne⟩, hes⟩ := List.forall_mem_cons.1 he
    have hde : (s.facing e).sampled.drained = false := sampled_drained_eq_false hd hne
    have hstep : step (s.facing e) = .next (s.facing e).sampled :=
      (step_txFlush (s := s.facing e) hidle hp).trans (flushStep_waiting hde)
    obtain ⟨t, hrun, ht, hlog⟩ := ih (s := (s.facing e).sampled) hp hde hes
    exact ⟨t, .cons hidle hstep hrun, ht, hlog⟩

/-- Settles O55: the wait for DRAINED has no timeout of its own (R124, R246), by induction over the
edges. -/
theorem undrainedSendKeepsWaiting : Obligations.UndrainedSendKeepsWaiting := by
  intro s es more hp hd hs he
  obtain ⟨t, hrun, ht, hlog⟩ := flush_waits_undrained hp hd he
  exact ⟨_, hrun.run hs, ht, busy_iff.2 (.inr (sending_iff.2 (.inl ht))), hlog, rfl⟩

end Sys2Proof.Machine
